-- ==== Sys2Proof/Word.lean ====
section
/-! DEFINITION. The two word types of the hardware: a byte of PIX or STR, and a packed pixel (R5, R56). -/

namespace Sys2Proof

/-- A byte, one unit of PIX and STR (R5, R50). -/
abbrev Byte := BitVec 8

/-- A 32-bit word: a packed pixel, or the image width or height (R5, R56). -/
abbrev Word := BitVec 32

end Sys2Proof
end

