-- ==== Sys2Proof/Config.lean ====
section
/-! DEFINITION. What one implementation fixes (the open parameters of R4) and the free values. -/

namespace Sys2Proof

/-- The open parameters of R4, `none` for unbounded (92_eei_decisions.md D6, D8).
State holds them as a record no rule writes, so a statement about a state is about every capacity (log 3, DESIGN CHOICE). -/
structure Config where
  /-- `OUT_CAP`: how many bytes of STR the encoder may write. -/
  outCap : Option Nat
  /-- `PIX_CAP`: how many bytes of PIX the decoder may write. -/
  pixCap : Option Nat
  deriving DecidableEq, Repr

/-- The bytes an operation had written to its output buffer are unspecified after it ends in ERROR
(R222, U2): a free value, from the tick and the address (log 4). -/
opaque Config.freeByte : Nat → Nat → Byte

/-- What a host read of CMD returns is unspecified (R32, U3): a free value, from the tick (log 6). -/
opaque Config.freeCmd : Nat → Nat

end Sys2Proof
end

