-- ==== Sys2Proof/Syntax.lean ====
section
/-! DEFINITION. The instructions: the six chunk kinds of spec/opcode_table.json, with their wire fields as operands. -/

namespace Sys2Proof

/-- A chunk (R82). The operands are the fields as they stand on the wire, biases not removed:
the operands of R177 to R182 (log 14, DESIGN CHOICE). -/
inductive Instr where
  /-- `QOI_OP_RGB` (R83): the three components. -/
  | rgb (r g b : Byte)
  /-- `QOI_OP_RGBA` (R84): the four components. -/
  | rgba (r g b a : Byte)
  /-- `QOI_OP_INDEX` (R85): an index into IDX. -/
  | index (idx : BitVec 6)
  /-- `QOI_OP_DIFF` (R86): the fields dr + 2, dg + 2, db + 2. -/
  | diff (fr fg fb : BitVec 2)
  /-- `QOI_OP_LUMA` (R87): the fields dg + 32, (dr - dg) + 8, (db - dg) + 8. -/
  | luma (fg : BitVec 6) (frg fbg : BitVec 4)
  /-- `QOI_OP_RUN` (R88): the field count - 1. -/
  | run (fr : BitVec 6)
  deriving DecidableEq, Repr

end Sys2Proof
end

