-- ==== Sys2Proof/WellFormed.lean ====
section
/-! DEFINITION. Which chunks exist on the wire. -/

namespace Sys2Proof

/-- Every field value is legal (R96) but the RUN payloads 62 and 63, which "do not exist as RUN chunks" (R94). -/
def Instr.wellFormed : Instr → Bool
  | .rgb _ _ _ => true
  | .rgba _ _ _ _ => true
  | .index _ => true
  | .diff _ _ _ => true
  | .luma _ _ _ => true
  | .run fr => decide (fr.toNat < 62)

end Sys2Proof
end

