-- ==== Sys2Proof/Decode.lean ====
section
/-! DEFINITION. The wire form of chunks: tags, the decoder (total on any bytes, rejecting by name), the encoder. -/

namespace Sys2Proof

/-- The tag constants of R120: the two full-byte tags. -/
def tagRgb : Byte := 0xFE
/-- See `tagRgb`. -/
def tagRgba : Byte := 0xFF
/-- The two-bit tags of R82. -/
def tagIndex : BitVec 2 := 0b00
/-- See `tagIndex`. -/
def tagDiff : BitVec 2 := 0b01
/-- See `tagIndex`. -/
def tagLuma : BitVec 2 := 0b10
/-- See `tagIndex`. -/
def tagRun : BitVec 2 := 0b11

/-- The two-bit tag of a first byte, `b0[7:6]` (R82). -/
def tagOf (b : Byte) : BitVec 2 := b.extractLsb' 6 2

/-- The six-bit payload of a first byte, `b0[5:0]` (R82). -/
def payloadOf (b : Byte) : BitVec 6 := b.extractLsb' 0 6

/-- The high nibble of LUMA's second byte, `b1[7:4]` (R87). -/
def highNibble (b : Byte) : BitVec 4 := b.extractLsb' 4 4

/-- The low nibble of LUMA's second byte, `b1[3:0]` (R87). -/
def lowNibble (b : Byte) : BitVec 4 := b.extractLsb' 0 4

/-- The three two-bit fields of a DIFF byte: `b0[5:4]`, `b0[3:2]`, `b0[1:0]` (R86). -/
def diffOf (b : Byte) : Instr := .diff (b.extractLsb' 4 2) (b.extractLsb' 2 2) (b.extractLsb' 0 2)

/-- The length of a chunk, from its first byte alone, the whole byte tested first (R97). -/
def chunkLength (b0 : Byte) : Nat :=
  if b0 = tagRgb then 4
  else if b0 = tagRgba then 5
  else if tagOf b0 = tagLuma then 2
  else 1

/-- Why bytes are no chunk: the only reason is that there are too few of them (R96, R176). -/
inductive DecodeError where
  /-- There is no first byte. -/
  | noByte
  /-- The first byte asks for a chunk of `length` bytes and fewer are there. -/
  | truncated (length : Nat)
  deriving DecidableEq, Repr

/-- Tag dispatch of R176: the two full-byte tags first (R254), then the top two bits.
Answers the chunk and the bytes after it. -/
def decode : List Byte → Except DecodeError (Instr × List Byte)
  | [] => .error .noByte
  | b0 :: bs =>
    if b0 = tagRgb then
      match bs with
      | r :: g :: b :: rest => .ok (.rgb r g b, rest)
      | _ => .error (.truncated 4)
    else if b0 = tagRgba then
      match bs with
      | r :: g :: b :: a :: rest => .ok (.rgba r g b a, rest)
      | _ => .error (.truncated 5)
    else if tagOf b0 = tagIndex then .ok (.index (payloadOf b0), bs)
    else if tagOf b0 = tagDiff then .ok (diffOf b0, bs)
    else if tagOf b0 = tagLuma then
      match bs with
      | b1 :: rest => .ok (.luma (payloadOf b0) (highNibble b1) (lowNibble b1), rest)
      | _ => .error (.truncated 2)
    else .ok (.run (payloadOf b0), bs)

/-- The bytes of a chunk, from the bit layouts of R83 to R88. -/
def encode : Instr → List Byte
  | .rgb r g b => [tagRgb, r, g, b]
  | .rgba r g b a => [tagRgba, r, g, b, a]
  | .index idx => [tagIndex ++ idx]
  | .diff fr fg fb => [tagDiff ++ fr ++ fg ++ fb]
  | .luma fg frg fbg => [tagLuma ++ fg, frg ++ fbg]
  | .run fr => [tagRun ++ fr]

/-- The longest chunk (R97). -/
def maxChunkLength : Nat := 5

/-- The bytes of an instruction word numbered as spec/opcode_table.json numbers it: the first byte lowest,
`nbits` bits of `w`, zeros above, up to the longest chunk. -/
def wordBytes (nbits w : Nat) : List Byte :=
  (List.range maxChunkLength).map fun k => BitVec.ofNat 8 ((w % 2 ^ nbits) >>> (8 * k))

/-- The chunk the decoder reads from a table word. -/
def decodeTableWord (nbits w : Nat) : Option Instr :=
  match decode (wordBytes nbits w) with
  | .ok (i, _) => some i
  | .error _ => none

end Sys2Proof
end

