-- ==== Sys2Proof/Machine/State.lean ====
section
/-! DEFINITION. The state of the block as plain data, the reasons a step can stop, and the state after reset. -/

namespace Sys2Proof.Machine

/-- `STATUS` (R38). -/
inductive Status where
  | idle | busy | done | error
  deriving DecidableEq, Repr

/-- `op`: which engine runs (R29). -/
inductive Engine where
  | enc | dec
  deriving DecidableEq, Repr

/-- `phase`: where the running engine's state machine stands (R29): P_START, P_BODY, P_END. -/
inductive Phase where
  | start | body | fin
  deriving DecidableEq, Repr

/-- The error kinds of R210. -/
inductive ErrorKind where
  | tooShort | badMagic | badColorspace | unexpectedEof | illegalRun | pixelCountMismatch
  | ioFailure | badArguments | badChannels | outOfCapacity
  deriving DecidableEq, Repr

/-- The model's own stops. The spec has none: its errors are next states (R9, R222). Both are safe (log 8). -/
inductive Fault where
  /-- Raised by every chunk meaning in a state in which no chunk step is due (`State.chunkDue`). Safe: no run reaches one. -/
  | chunkNotDue
  /-- Raised by `step` in P_BODY of an encode in a state in which no pixel step is due (`State.pixelDue`). Safe: no run reaches one. -/
  | pixelNotDue
  deriving DecidableEq, Repr

/-- Reasons for giving no answer. -/
inductive Refusal where
  /-- Raised by `exec` for an instruction that has no meaning yet. Safe. -/
  | notModelled (mnemonic : String)
  /-- Raised by `hostMove` and `hostRead` for an access the host must not make while BUSY (R66, R249, U4).
  Unsafe where a real host breaks its duty: the model has no such move (log 9). -/
  | hostAccessWhileBusy
  deriving DecidableEq, Repr

/-- PIX or STR: (address, byte) pairs in the canonical form of `Memory.wf`. -/
abbrev Memory := List Host.Cell

/-- Everything the spec gives the machine; INVENTORY.md cites the rule of each field. -/
structure State where
  /-- OUT_CAP and PIX_CAP (R4); no rule writes them. -/
  cfg : Config
  /-- The previous pixel (R20). -/
  prev : Word
  /-- The current pixel (R21). -/
  cur : Word
  /-- The index RAM (R41). -/
  idx : Vector Word 64
  /-- The open-run flag (R30). -/
  runOpen : Bool
  /-- R29. -/
  op : Engine
  /-- R29. -/
  phase : Phase
  /-- Pixels consumed by the encoder (R24). -/
  pxPos : Nat
  /-- Bytes appended by the encoder (R25). -/
  outLen : Nat
  /-- The decoder's position in STR (R26). -/
  cursor : Nat
  /-- Pixels the decoder still owes (R27). -/
  remaining : Nat
  /-- Bytes written by the decoder (R28). -/
  pixWr : Nat
  /-- R38. -/
  status : Status
  /-- The error code (R39, R210). -/
  err : BitVec 4
  /-- R33. -/
  encWidth : Word
  /-- R33. -/
  encHeight : Word
  /-- R33. -/
  encChannels : Byte
  /-- R33. -/
  encColorspace : Byte
  /-- R33. -/
  encPixLen : Nat
  /-- R34. -/
  encOutLen : Nat
  /-- R35. -/
  decLen : Nat
  /-- R36. -/
  decStrict : Bool
  /-- R37. -/
  decWidth : Word
  /-- R37. -/
  decHeight : Word
  /-- R37. -/
  decChannels : Byte
  /-- R37. -/
  decColorspace : Byte
  /-- R37. -/
  decPixLen : Nat
  /-- The pixel buffer (R51). -/
  pix : Memory
  /-- The stream buffer (R52). -/
  str : Memory
  /-- The model's own counter of free values (log 4, log 6). -/
  freeTick : Nat
  deriving DecidableEq, Repr

/-- The block after hardware reset (R240): STATUS, ERR and the result registers as the spec says; every other
value is the model's choice for one the spec leaves unspecified (DESIGN CHOICE: log 1, log 2, log 3). -/
def State.reset : State where
  cfg := ⟨none, none⟩
  prev := 0x000000FF
  cur := 0
  idx := Vector.replicate 64 0
  runOpen := false
  op := .enc
  phase := .start
  pxPos := 0
  outLen := 0
  cursor := 14
  remaining := 0
  pixWr := 0
  status := .idle
  err := 0
  encWidth := 0
  encHeight := 0
  encChannels := 0
  encColorspace := 0
  encPixLen := 0
  encOutLen := 0
  decLen := 0
  decStrict := false
  decWidth := 0
  decHeight := 0
  decChannels := 0
  decColorspace := 0
  decPixLen := 0
  pix := []
  str := []
  freeTick := 0

end Sys2Proof.Machine
end

