-- ==== Sys2Proof/Machine/Operands.lean ====
section
/-! DEFINITION. Shared primitives on values: pixel packer and unpacker, hash unit, big-endian word codec,
field biases, deltas, fixed framing bytes. -/

namespace Sys2Proof.Machine

/-- `pack(R, G, B, A)`: R in the top byte (R110). -/
def pack (r g b a : Byte) : Word := r ++ g ++ b ++ a

/-- `w.R`, bits 31:24 (R111). -/
def red (w : Word) : Byte := w.extractLsb' 24 8
/-- `w.G`, bits 23:16 (R111). -/
def green (w : Word) : Byte := w.extractLsb' 16 8
/-- `w.B`, bits 15:8 (R111). -/
def blue (w : Word) : Byte := w.extractLsb' 8 8
/-- `w.A`, bits 7:0 (R111). -/
def alpha (w : Word) : Byte := w.extractLsb' 0 8

/-- The bytes a pixel takes in the pixel buffer: R, G, B, and A when there are 4 channels (R63). -/
def pixelBytes (channels : Byte) (w : Word) : List Byte :=
  if channels = 4 then [red w, green w, blue w, alpha w] else [red w, green w, blue w]

/-- The hash sum over the integers (R113, R114). -/
def hashSum (w : Word) : Nat :=
  (red w).toNat * 3 + (green w).toNat * 5 + (blue w).toNat * 7 + (alpha w).toNat * 11

/-- `h(p)`: the sum modulo 64, a six-bit index (R113). -/
def pixelHash (w : Word) : BitVec 6 := BitVec.ofNat 6 (hashSum w)

/-- `be32_bytes(v)`: most significant byte first (R118). -/
def be32Bytes (v : Word) : List Byte :=
  [v.extractLsb' 24 8, v.extractLsb' 16 8, v.extractLsb' 8 8, v.extractLsb' 0 8]

/-- `be32_value(b0, b1, b2, b3)` (R119). -/
def be32Value (b0 b1 b2 b3 : Byte) : Word := b0 ++ b1 ++ b2 ++ b3

/-- The value every operation gives `prev` at its start: the pixel (0, 0, 0, 255) (R20, R242). -/
def initialPrev : Word := 0x000000FF

/-- The magic bytes "qoif" (R81). -/
def magic : List Byte := [0x71, 0x6F, 0x69, 0x66]

/-- The 14 bytes of a header, `HEADER w, h, c, cs` of R99 (R81). -/
def headerBytes (w h : Word) (c cs : Byte) : List Byte :=
  magic ++ be32Bytes w ++ be32Bytes h ++ [c, cs]

/-- The end marker, `END` of R99 (R89). -/
def endMarker : List Byte := [0, 0, 0, 0, 0, 0, 0, 1]

/-- A stored field with its bias subtracted over the integers (R90, R91). -/
def unbias {n : Nat} (bias : Int) (field : BitVec n) : Int := (field.toNat : Int) - bias

/-- A signed value with its bias added, as an `n`-bit field (R90, R91). -/
def rebias (n : Nat) (bias value : Int) : BitVec n := BitVec.ofInt n (value + bias)

/-- The repeat count of a RUN payload (R92). -/
def runCount (fr : BitVec 6) : Nat := fr.toNat + 1

/-- `(int(c) + d) mod 256` (R180, R181). -/
def addDelta (c : Byte) (d : Int) : Byte := BitVec.ofInt 8 ((c.toNat : Int) + d)

/-- The pixel `p` with signed deltas added to R, G and B modulo 256 and alpha kept (R180, R181). -/
def addDeltas (p : Word) (dr dg db : Int) : Word :=
  pack (addDelta (red p) dr) (addDelta (green p) dg) (addDelta (blue p) db) (alpha p)

/-- The pixel a DIFF chunk reconstructs from `p` (R180). -/
def diffPixel (p : Word) (fr fg fb : BitVec 2) : Word :=
  addDeltas p (unbias 2 fr) (unbias 2 fg) (unbias 2 fb)

/-- The pixel a LUMA chunk reconstructs from `p` (R181). -/
def lumaPixel (p : Word) (fg : BitVec 6) (frg fbg : BitVec 4) : Word :=
  addDeltas p (unbias 8 frg + unbias 32 fg) (unbias 32 fg) (unbias 8 fbg + unbias 32 fg)

/-- A difference of two components over the integers, never wrapped (R137). -/
def delta (new old : Byte) : Int := (new.toNat : Int) - (old.toNat : Int)

/-- `dr` of R137. -/
def deltaR (cur prev : Word) : Int := delta (red cur) (red prev)
/-- `dg` of R137. -/
def deltaG (cur prev : Word) : Int := delta (green cur) (green prev)
/-- `db` of R137. -/
def deltaB (cur prev : Word) : Int := delta (blue cur) (blue prev)

end Sys2Proof.Machine
end

