-- ==== Sys2Proof/Machine/Flags.lean ====
section
/-! DEFINITION. The comparisons of the chunk-tag selector. They are combinational: the block stores no condition
codes (R31), and its one flag, `run_open` (R30), is written by the encoder's rules in Machine/Encoder.lean. -/

namespace Sys2Proof.Machine

/-- `lo <= v <= hi` over the integers. -/
def within (lo hi v : Int) : Bool := decide (lo ≤ v) && decide (v ≤ hi)

/-- `same_a`: alpha unchanged, an equality of bytes (R137). -/
def sameAlpha (cur prev : Word) : Bool := decide (alpha cur = alpha prev)

/-- The delta test of DIFF: each delta in [-2, +1] (R143). -/
def diffEligible (cur prev : Word) : Bool :=
  within (-2) 1 (deltaR cur prev) && within (-2) 1 (deltaG cur prev) && within (-2) 1 (deltaB cur prev)

/-- The delta test of LUMA: dg in [-32, +31], dr - dg and db - dg in [-8, +7] (R144). -/
def lumaEligible (cur prev : Word) : Bool :=
  within (-32) 31 (deltaG cur prev)
    && within (-8) 7 (deltaR cur prev - deltaG cur prev)
    && within (-8) 7 (deltaB cur prev - deltaG cur prev)

/-- The chunk for a pixel that differs from `prev`, `entry` being `IDX[h(cur)]` before this pixel's update:
index, then diff, luma, rgb, rgba (R135, R142 to R146). -/
def selectChunk (cur prev entry : Word) : Instr :=
  if entry = cur then .index (pixelHash cur)
  else if sameAlpha cur prev && diffEligible cur prev then
    .diff (rebias 2 2 (deltaR cur prev)) (rebias 2 2 (deltaG cur prev)) (rebias 2 2 (deltaB cur prev))
  else if sameAlpha cur prev && lumaEligible cur prev then
    .luma (rebias 6 32 (deltaG cur prev))
      (rebias 4 8 (deltaR cur prev - deltaG cur prev)) (rebias 4 8 (deltaB cur prev - deltaG cur prev))
  else if sameAlpha cur prev then .rgb (red cur) (green cur) (blue cur)
  else .rgba (red cur) (green cur) (blue cur) (alpha cur)

end Sys2Proof.Machine
end

