-- ==== Sys2Proof/Machine/Ops.lean ====
section
/-! DEFINITION. The named operations over memory and registers, raising an error, and the guards of a step. -/

namespace Sys2Proof.Machine

/-! ### The byte spaces PIX and STR (R50, R57, R61) -/

/-- What an address that nothing has written reads as: the spec leaves buffer contents unspecified (R240);
DESIGN CHOICE, unsafe (log 2). -/
def Memory.unlisted : Byte := 0x00

/-- One byte of a space. -/
def Memory.read : Memory → Nat → Byte
  | [], _ => Memory.unlisted
  | (k, b) :: m, a => if k = a then b else Memory.read m a

/-- Write one byte, keeping the canonical form `Memory.wf`. -/
def Memory.write : Memory → Nat → Byte → Memory
  | [], a, v => if v = Memory.unlisted then [] else [(a, v)]
  | (k, b) :: m, a, v =>
    if a < k then
      if v = Memory.unlisted then (k, b) :: m else (a, v) :: (k, b) :: m
    else if a = k then
      if v = Memory.unlisted then m else (a, v) :: m
    else (k, b) :: Memory.write m a v

/-- The canonical form: addresses at least `lo` and strictly rising, no entry equal to `Memory.unlisted`. -/
def Memory.wfFrom : Nat → Memory → Bool
  | _, [] => true
  | lo, (k, b) :: m => decide (lo ≤ k) && decide (b ≠ Memory.unlisted) && Memory.wfFrom (k + 1) m

/-- The canonical form of a memory. -/
def Memory.wf (m : Memory) : Bool := Memory.wfFrom 0 m

/-- `MemRead(S, a, n)`: `n` bytes from address `a`, lowest first (R8). -/
def Memory.readBytes (m : Memory) : Nat → Nat → List Byte
  | _, 0 => []
  | a, n + 1 => m.read a :: Memory.readBytes m (a + 1) n

/-- `MemWrite(S, a, n, v)`: the bytes of a list from address `a` up (R8). -/
def Memory.writeBytes : Memory → Nat → List Byte → Memory
  | m, _, [] => m
  | m, a, b :: bs => Memory.writeBytes (m.write a b) (a + 1) bs

/-- The bytes below `n` replaced by free values: an output buffer whose written part is unspecified (R222, log 4). -/
def Memory.scrub (tick : Nat) : Nat → Memory → Memory
  | 0, m => m
  | n + 1, m => (Memory.scrub tick n m).write n (Config.freeByte tick n)

/-! ### Pixels in PIX -/

/-- `LoadPixel(i, c)`: with 3 channels alpha is 255 (R112). -/
def loadPixel (m : Memory) (i : Nat) (channels : Byte) : Word :=
  let a := i * channels.toNat
  pack (m.read a) (m.read (a + 1)) (m.read (a + 2)) (if channels = 4 then m.read (a + 3) else 255)

/-- `StorePixel(a, c, w)`: with 3 channels alpha is dropped (R116). -/
def storePixel (m : Memory) (a : Nat) (channels : Byte) (w : Word) : Memory :=
  m.writeBytes a (pixelBytes channels w)

/-- `StorePixel` repeated `count` times, the address moving by the channel count (R183). -/
def storePixels (channels : Byte) (w : Word) : Nat → Nat → Memory → Memory
  | 0, _, m => m
  | n + 1, a, m => storePixels channels w n (a + channels.toNat) (storePixel m a channels w)

/-! ### The index RAM (R43, R53) -/

/-- `IDX[i]`. -/
def State.idxRead (s : State) (i : BitVec 6) : Word := s.idx[i.toNat]'i.isLt

/-- All 64 words zero (R42). -/
def clearedIdx : Vector Word 64 := Vector.replicate 64 0

/-- `Update(p)`: `IDX[h(p)] <- p`, `prev <- p`, on every pixel and every chunk (R117). -/
def State.update (s : State) (p : Word) : State :=
  { s with idx := s.idx.set (pixelHash p).toNat p (pixelHash p).isLt, prev := p }

/-! ### Raising an error: the block's one exceptional event (R222) -/

/-- The code of an error kind in ERR (R210). -/
def ErrorKind.code : ErrorKind → BitVec 4
  | .tooShort => 1
  | .badMagic => 2
  | .badColorspace => 3
  | .unexpectedEof => 4
  | .illegalRun => 5
  | .pixelCountMismatch => 6
  | .ioFailure => 7
  | .badArguments => 8
  | .badChannels => 9
  | .outOfCapacity => 10

/-- The value of STATUS as its two bits (R38). -/
def Status.code : Status → BitVec 2
  | .idle => 0
  | .busy => 1
  | .done => 2
  | .error => 3

/-- `raise Error(K)` in full (R222): ERR, STATUS, and the running operation's result registers.
`written` is how many bytes the operation has written to its output buffer: they become free values (log 4). -/
def State.raiseError (s : State) (k : ErrorKind) (written : Nat) : State :=
  { s with
    err := k.code
    status := .error
    encOutLen := if s.op = .enc then 0 else s.encOutLen
    decPixLen := if s.op = .dec then 0 else s.decPixLen
    decWidth := if s.op = .dec then 0 else s.decWidth
    decHeight := if s.op = .dec then 0 else s.decHeight
    decChannels := if s.op = .dec then 0 else s.decChannels
    decColorspace := if s.op = .dec then 0 else s.decColorspace
    str := if s.op = .enc then s.str.scrub s.freeTick written else s.str
    pix := if s.op = .dec then s.pix.scrub s.freeTick written else s.pix
    freeTick := s.freeTick + 1 }

/-- An engine action that either went through or raised an error. An error carries no state: it is raised from the state
before the step, since a step makes its checks before its writes (R222, R251). -/
inductive Action where
  /-- The action went through. -/
  | ok (s : State)
  /-- It raised `k` when the operation had written `written` bytes of output. -/
  | raised (k : ErrorKind) (written : Nat)

/-- One action after another; an error ends the sequence (R9, R221). -/
def Action.andThen (x : Action) (f : State → Action) : Action :=
  match x with
  | .ok s => f s
  | .raised k n => .raised k n

/-- The state a step begun in `start` leaves: an error takes its effects on `start` itself (R251, log 12). -/
def Action.settle (x : Action) (start : State) : State :=
  match x with
  | .ok t => t
  | .raised k n => start.raiseError k n

/-! ### Sizes and capacities -/

/-- Whether `n` bytes are within a capacity (R4, R133, R175). -/
def fits (cap : Option Nat) (n : Nat) : Bool :=
  match cap with
  | none => true
  | some c => decide (n ≤ c)

/-- `npix` of an encode, exact (R131, D14). -/
def State.encPixels (s : State) : Nat := s.encWidth.toNat * s.encHeight.toNat

/-- `width * height` of a decode, exact (R175, D14). -/
def State.decPixels (s : State) : Nat := s.decWidth.toNat * s.decHeight.toNat

/-! ### The encoder's output (R133) -/

/-- The state after the bytes are appended. -/
def State.appended (s : State) (bs : List Byte) : State :=
  { s with str := s.str.writeBytes s.outLen bs, outLen := s.outLen + bs.length }

/-- `Append(b_0, ..., b_{k-1})`: the capacity check, then all the bytes (R133). -/
def State.append (s : State) (bs : List Byte) : Action :=
  if fits s.cfg.outCap (s.outLen + bs.length) then .ok (s.appended bs)
  else .raised .outOfCapacity s.outLen

/-! ### Chunk execution (R176, R183) -/

/-- Whether a chunk step is due: the state is one in which R170 and R183 define a chunk step. -/
abbrev State.chunkDue (s : State) : Prop :=
  s.status = .busy ∧ s.op = .dec ∧ s.phase = .body ∧ 0 < s.remaining
    ∧ (s.decChannels = 3 ∨ s.decChannels = 4)

/-- A chunk step that is not due stops (log 8, DESIGN CHOICE, safe). -/
def State.whenChunkDue (s : State) (result : Host.Outcome State Fault Refusal) :
    Host.Outcome State Fault Refusal :=
  if s.chunkDue then result else .fault .chunkNotDue

/-- An error raised by a chunk step (R222): the decoder has written `pix_wr` bytes. -/
def State.chunkError (s : State) (k : ErrorKind) : State := s.raiseError k s.pixWr

/-- `if cursor + L > n then raise Error(UnexpectedEof)` (R176). -/
def State.whenFits (s : State) (length : Nat) (result : Host.Outcome State Fault Refusal) :
    Host.Outcome State Fault Refusal :=
  if s.decLen < s.cursor + length then .next (s.chunkError .unexpectedEof) else result

/-- The phase after a chunk step that leaves `remaining` pixels owed (R170). -/
def chunkPhase (remaining : Nat) : Phase := if 0 < remaining then .body else .fin

/-- What every chunk does once its checks are passed: `cur` and `cursor` of its own rule, then the common tail
(R183): `count` copies of the pixel stored, the update, the counters, and the phase of R170. -/
def State.emitChunk (s : State) (length count : Nat) (pixel : Word) : State :=
  let t := s.update pixel
  { t with
    cur := pixel
    cursor := s.cursor + length
    pix := storePixels s.decChannels pixel count s.pixWr s.pix
    pixWr := s.pixWr + count * s.decChannels.toNat
    remaining := s.remaining - count
    phase := chunkPhase (s.remaining - count) }

end Sys2Proof.Machine
end

