-- ==== Sys2Proof/Machine/Decoder.lean ====
section
/-! DEFINITION. The decoder's start step (R171 to R175), chunk fetch (R176) and end step (R184), and the state in which
a given chunk is the next to run. -/

namespace Sys2Proof.Machine

/-- The header fields parsed into the result registers (R175). -/
def State.decParse (s : State) : State :=
  { s with
    decWidth := be32Value (s.str.read 4) (s.str.read 5) (s.str.read 6) (s.str.read 7)
    decHeight := be32Value (s.str.read 8) (s.str.read 9) (s.str.read 10) (s.str.read 11)
    decChannels := s.str.read 12
    decColorspace := s.str.read 13 }

/-- The initialisation of R175, and the phase of R170. -/
def State.decInit (s : State) : State :=
  { s with
    idx := clearedIdx, prev := initialPrev, cursor := 14, remaining := s.decPixels, pixWr := 0, decPixLen := 0
    phase := chunkPhase s.decPixels }

/-- `DEC_WIDTH * DEC_HEIGHT * DEC_CHANNELS`, exact (R175, D14). -/
def State.decBytes (s : State) : Nat := s.decPixels * s.decChannels.toNat

/-- The first check of the start step that fails, in the order of R221. -/
def State.decHeaderError (s : State) : Option ErrorKind :=
  if s.decLen < 22 then some .tooShort
  else if s.str.readBytes 0 4 ≠ magic then some .badMagic
  else if 1 < (s.str.read 13).toNat then some .badColorspace
  else if s.str.read 12 ≠ 3 ∧ s.str.read 12 ≠ 4 then some .badChannels
  else if fits s.cfg.pixCap s.decParse.decBytes then none
  else some .outOfCapacity

/-- The start step (R171 to R175). Nothing has been written to PIX when it raises. -/
def decStart (s : State) : State :=
  match s.decHeaderError with
  | some k => s.raiseError k 0
  | none => s.decParse.decInit

/-- The bytes the decoder may look at for the next chunk: from `cursor` on, never at or past `DEC_LEN` (R176). -/
def State.fetchWindow (s : State) : List Byte :=
  s.str.readBytes s.cursor (min maxChunkLength (s.decLen - s.cursor))

/-- The chunk at `cursor`, or no chunk because the input ends first (R176). -/
def State.fetchChunk (s : State) : Option Instr :=
  match decode s.fetchWindow with
  | .ok (i, _) => some i
  | .error _ => none

/-- What a strict decoder verifies at the end: exactly the end marker is left (R184). -/
def State.strictEndOk (s : State) : Bool :=
  decide (s.decLen = s.cursor + 8) && decide (s.str.readBytes s.cursor 8 = endMarker)

/-- `DEC_PIX_LEN <- pix_wr; STATUS <- DONE` (R184). IDX, whose contents after an operation are unspecified (R42), and the
rest of the working state keep what the last step left: the model's choice (DESIGN CHOICE, log 5, log 15). -/
def State.finishDecode (s : State) : State := { s with decPixLen := s.pixWr, status := .done }

/-- The end step (R184). -/
def decEnd (s : State) : State :=
  if s.decStrict && !s.strictEndOk then s.raiseError .pixelCountMismatch s.pixWr
  else s.finishDecode

/-- A state in which a chunk step is due: `s` itself where one is, else a decode of a 62 x 1 image of 4 channels
about to run its first chunk (log 10, DESIGN CHOICE). -/
def State.readyForChunk (s : State) : State :=
  if s.chunkDue then s
  else
    { s with
      status := .busy, err := 0, op := .dec, phase := .body, cursor := 14, remaining := 62, pixWr := 0
      decWidth := 62, decHeight := 1, decChannels := 4, decColorspace := 0, decPixLen := 0 }

end Sys2Proof.Machine
end

