-- ==== Sys2Proof/Machine/Delta.lean ====
section
/-! DEFINITION. The chunks that carry differences: DIFF and LUMA. -/

namespace Sys2Proof.Machine

/-- DIFF: three deltas in -2 to +1 added to `prev` modulo 256, alpha kept (R180). -/
def execDiff (fr fg fb : BitVec 2) (s : State) : Host.Outcome State Fault Refusal :=
  s.whenChunkDue (.next (s.emitChunk 1 1 (diffPixel s.prev fr fg fb)))

/-- LUMA: dg, and dr and db relative to dg, added to `prev` modulo 256, alpha kept (R181). -/
def execLuma (fg : BitVec 6) (frg fbg : BitVec 4) (s : State) : Host.Outcome State Fault Refusal :=
  s.whenChunkDue (s.whenFits 2 (.next (s.emitChunk 2 1 (lumaPixel s.prev fg frg fbg))))

end Sys2Proof.Machine
end

