-- ==== Sys2Proof/Machine/Literal.lean ====
section
/-! DEFINITION. The chunks that carry component values: RGB and RGBA. -/

namespace Sys2Proof.Machine

/-- RGB: three components from the stream, alpha of `prev` (R177). -/
def execRgb (r g b : Byte) (s : State) : Host.Outcome State Fault Refusal :=
  s.whenChunkDue (s.whenFits 4 (.next (s.emitChunk 4 1 (pack r g b (alpha s.prev)))))

/-- RGBA: four components from the stream, in a 3-channel stream as well (R178, R186). -/
def execRgba (r g b a : Byte) (s : State) : Host.Outcome State Fault Refusal :=
  s.whenChunkDue (s.whenFits 5 (.next (s.emitChunk 5 1 (pack r g b a))))

end Sys2Proof.Machine
end

