-- ==== Sys2Proof/Machine/Run.lean ====
section
/-! DEFINITION. The chunk that repeats `prev`: RUN. -/

namespace Sys2Proof.Machine

/-- RUN: `count` copies of `prev` (R182). The payload check never fires through `step` (R189); a run longer than the
pixels still owed is `PixelCountMismatch`, before anything is written. -/
def execRun (fr : BitVec 6) (s : State) : Host.Outcome State Fault Refusal :=
  s.whenChunkDue
    (if 62 ≤ fr.toNat then .next (s.chunkError .illegalRun)
     else if s.remaining < runCount fr then .next (s.chunkError .pixelCountMismatch)
     else .next (s.emitChunk 1 (runCount fr) s.prev))

end Sys2Proof.Machine
end

