-- ==== Sys2Proof/Machine/Table.lean ====
section
/-! DEFINITION. The chunk that reads the index RAM: INDEX. -/

namespace Sys2Proof.Machine

/-- INDEX: the pixel is the table entry, read before the update writes the table (R179, R248).
The rule makes no length test of its own: the fetch has (R176). -/
def execIndex (idx : BitVec 6) (s : State) : Host.Outcome State Fault Refusal :=
  s.whenChunkDue (.next (s.emitChunk 1 1 (s.idxRead idx)))

end Sys2Proof.Machine
end

