-- ==== Sys2Proof/Machine/Encoder.lean ====
section
/-! DEFINITION. The encoder's three steps: start (R131, R132), pixel (R134 to R146), end (R147). -/

namespace Sys2Proof.Machine

/-- The argument check: channels 3 or 4, colorspace 0 or 1, the exact length (R131). -/
def State.encArgsOk (s : State) : Bool :=
  (decide (s.encChannels = 3) || decide (s.encChannels = 4))
    && decide (s.encColorspace.toNat ≤ 1)
    && decide (s.encPixLen = s.encPixels * s.encChannels.toNat)

/-- The initialisation of R132. -/
def State.encInit (s : State) : State :=
  { s with
    idx := clearedIdx, prev := initialPrev, runOpen := false, pxPos := 0, outLen := 0, encOutLen := 0 }

/-- The phase of an encode with `pos` of its pixels consumed (R130). -/
def State.encPhase (s : State) (pos : Nat) : Phase := if pos < s.encPixels then .body else .fin

/-- `phase <- p` (R29). -/
def State.setPhase (s : State) (p : Phase) : State := { s with phase := p }

/-- `run_open <- b` (R30). -/
def State.setRunOpen (s : State) (b : Bool) : State := { s with runOpen := b }

/-- The 14 bytes of the header appended (R132). The capacity is checked for all of them at once, "`OutOfCapacity` if
`OUT_CAP < 14`", so that the check precedes every write (R251, log 12). -/
def State.appendHeader (s : State) : Action :=
  s.append (headerBytes s.encWidth s.encHeight s.encChannels s.encColorspace)

/-- The start step (R131, R132): nothing is written when the arguments are bad or the header does not fit. -/
def encStart (s : State) : State :=
  if s.encArgsOk then
    (s.encInit.appendHeader.andThen fun t => .ok (t.setPhase (t.encPhase 0))).settle s
  else s.raiseError .badArguments 0

/-- The address of the tail byte, `out_len - 1` (R44). -/
def State.tailAddr (s : State) : Nat := s.outLen - 1

/-- The tail byte (R44). -/
def State.tailByte (s : State) : Byte := s.str.read s.tailAddr

/-- Run start (R138): a RUN of count 1. -/
def State.runStart (s : State) : Action :=
  (s.append (encode (.run 0))).andThen fun t => .ok (t.setRunOpen true)

/-- The tail byte's count raised in place (R60, R139). -/
def State.raiseTail (s : State) : State := { s with str := s.str.write s.tailAddr (s.tailByte + 1) }

/-- Run extension (R139): no byte is appended. -/
def State.runExtend (s : State) : Action := .ok s.raiseTail

/-- Run overflow (R140): a fresh RUN of count 1, the flag kept (R252). -/
def State.runOverflow (s : State) : Action := s.append (encode (.run 0))

/-- The largest run byte, count 62 (R120, R140). -/
def maxRunByte : Byte := 0xFD

/-- The run accumulator, for a pixel equal to `prev` (R138 to R140). -/
def State.accumulateRun (s : State) : Action :=
  if s.runOpen then
    if s.tailByte = maxRunByte then s.runOverflow else s.runExtend
  else s.runStart

/-- A pixel that differs from `prev`: the run is closed (R141), then the selected chunk is appended (R142 to R146).
The entry is read before the update (R248). -/
def State.emitSelected (s : State) : Action :=
  (s.setRunOpen false).append (encode (selectChunk s.cur s.prev (s.idxRead (pixelHash s.cur))))

/-- `Update(cur)`, the position, and the phase of R130, at the end of a pixel step (R135). -/
def State.finishPixel (s : State) : State :=
  let t := s.update s.cur
  { t with pxPos := s.pxPos + 1, phase := s.encPhase (s.pxPos + 1) }

/-- The state with the pixel fetched (R134). -/
def State.fetchPixel (s : State) : State :=
  { s with cur := loadPixel s.pix s.pxPos s.encChannels }

/-- The chunk emission of a pixel step, after the fetch (R135). -/
def State.emitPixel (s : State) : Action :=
  if s.cur = s.prev then s.accumulateRun else s.emitSelected

/-- The pixel step (R135). -/
def encPixel (s : State) : State :=
  (s.fetchPixel.emitPixel.andThen fun t => .ok t.finishPixel).settle s

/-- Whether a pixel step is due: the state is one in which R130, R135 and R139 define a pixel step. -/
abbrev State.pixelDue (s : State) : Prop :=
  s.status = .busy ∧ s.op = .enc ∧ s.phase = .body ∧ s.pxPos < s.encPixels
    ∧ (s.encChannels = 3 ∨ s.encChannels = 4) ∧ (s.runOpen = true → 0 < s.outLen)

/-- The body step of an encode; a pixel step that is not due stops (log 8, DESIGN CHOICE, safe). -/
def encBody (s : State) : Host.Outcome State Fault Refusal :=
  if s.pixelDue then .next (encPixel s) else .fault .pixelNotDue

/-- `ENC_OUT_LEN <- out_len; STATUS <- DONE` (R147). IDX, whose contents after an operation are unspecified (R42), and the
rest of the working state keep what the last step left: the model's choice (DESIGN CHOICE, log 5, log 15). -/
def State.finishEncode (s : State) : State := { s with encOutLen := s.outLen, status := .done }

/-- The end step (R147): the end marker, the result length, DONE. -/
def encEnd (s : State) : State :=
  ((s.append endMarker).andThen fun t => .ok t.finishEncode).settle s

end Sys2Proof.Machine
end

