-- ==== Sys2Proof/Machine/Step.lean ====
section
/-! DEFINITION. One step of the block (R10, R130, R170). -/

namespace Sys2Proof.Machine

/-- One chunk step of a decode: fetch and dispatch (R176), then the chunk's own rule. -/
def decBody (s : State) : Host.Outcome State Fault Refusal :=
  match s.fetchChunk with
  | some i => exec i s
  | none => .next (s.chunkError .unexpectedEof)

/-- One transition of the running engine. While no operation runs "the block executes nothing until the host writes
a start command" (R243), so the state stays (log 7). -/
def step (s : State) : Host.Outcome State Fault Refusal :=
  match s.status, s.op, s.phase with
  | .busy, .enc, .start => .next (encStart s)
  | .busy, .enc, .body => encBody s
  | .busy, .enc, .fin => .next (encEnd s)
  | .busy, .dec, .start => .next (decStart s)
  | .busy, .dec, .body => decBody s
  | .busy, .dec, .fin => .next (decEnd s)
  | .idle, _, _ => .next s
  | .done, _, _ => .next s
  | .error, _, _ => .next s

/-- The state with an instruction word stored where the next chunk is fetched, at `cursor`, and the input long enough
to hold it (with the end marker's 8 bytes, so that a stream of its first chunk alone has the least legal length, R171). -/
def State.withFetchWord (s : State) (nbits w : Nat) : State :=
  let t := s.readyForChunk
  { t with
    str := t.str.writeBytes t.cursor (wordBytes nbits w)
    decLen := max t.decLen (t.cursor + 8) }

end Sys2Proof.Machine
end

