-- ==== Sys2Proof/Machine/HostPort.lean ====
section
/-! DEFINITION. What the host can do between steps: start commands, parameter and buffer writes, reads, hardware reset
(R32, R40, R66, R240, R241, R244). `step` never calls these (log 9). -/

namespace Sys2Proof.Machine

/-- The two commands of CMD (R32). -/
inductive Command where
  | startEnc | startDec
  deriving DecidableEq, Repr

/-- Everything the host can write (R40), and the reset line (R241). -/
inductive HostMove where
  /-- A write of CMD. -/
  | command (c : Command)
  | encWidth (v : Word)
  | encHeight (v : Word)
  | encChannels (v : Byte)
  | encColorspace (v : Byte)
  | encPixLen (n : Nat)
  | decLen (n : Nat)
  | decStrict (b : Bool)
  /-- A byte of PIX. -/
  | pix (a : Nat) (b : Byte)
  /-- A byte of STR. -/
  | str (a : Nat) (b : Byte)
  | hardwareReset
  deriving DecidableEq, Repr

/-- Everything the host can read (R40), and CMD, whose read returns an unspecified value (R32). -/
inductive HostReg where
  | cmd | status | err | encOutLen | decWidth | decHeight | decChannels | decColorspace | decPixLen
  /-- A byte of PIX. -/
  | pix (a : Nat)
  /-- A byte of STR. -/
  | str (a : Nat)
  deriving DecidableEq, Repr

/-- The engine a command starts. -/
def Command.engine : Command → Engine
  | .startEnc => .enc
  | .startDec => .dec

/-- The state a start command leaves (R244). -/
def State.started (s : State) (e : Engine) : State :=
  { s with status := .busy, op := e, phase := .start, err := 0 }

/-- A write of CMD: while BUSY it has no effect, else it starts the operation (R32, R244). -/
def State.writeCmd (s : State) (c : Command) : State :=
  if s.status = .busy then s
  else s.started c.engine

/-- A hardware reset at any time (R240, R241): the state of reset, the capacities and the model's tick kept (log 13). -/
def State.hardwareReset (s : State) : State :=
  { State.reset with cfg := s.cfg, freeTick := s.freeTick }

/-- An access that the host may make only while STATUS is not BUSY (R40, R66, R249). -/
def State.whenNotBusy {α : Type} (s : State) (result : Host.Outcome α Fault Refusal) :
    Host.Outcome α Fault Refusal :=
  if s.status = .busy then .refused .hostAccessWhileBusy else result

/-- One move of the host. Illegal parameter values are stored as written (R40). -/
def hostMove (m : HostMove) (s : State) : Host.Outcome State Fault Refusal :=
  match m with
  | .command c => .next (s.writeCmd c)
  | .encWidth v => s.whenNotBusy (.next { s with encWidth := v })
  | .encHeight v => s.whenNotBusy (.next { s with encHeight := v })
  | .encChannels v => s.whenNotBusy (.next { s with encChannels := v })
  | .encColorspace v => s.whenNotBusy (.next { s with encColorspace := v })
  | .encPixLen n => s.whenNotBusy (.next { s with encPixLen := n })
  | .decLen n => s.whenNotBusy (.next { s with decLen := n })
  | .decStrict b => s.whenNotBusy (.next { s with decStrict := b })
  | .pix a b => s.whenNotBusy (.next { s with pix := s.pix.write a b })
  | .str a b => s.whenNotBusy (.next { s with str := s.str.write a b })
  | .hardwareReset => .next s.hardwareReset

/-- One read by the host: the value, and the state after it (a read changes nothing but the model's tick, R61).
STATUS and ERR at any time, results and buffers only while not BUSY (R37, R40); CMD gives a free value (log 6). -/
def hostRead (r : HostReg) (s : State) : Host.Outcome (Nat × State) Fault Refusal :=
  match r with
  | .cmd => .next (Config.freeCmd s.freeTick, { s with freeTick := s.freeTick + 1 })
  | .status => .next (s.status.code.toNat, s)
  | .err => .next (s.err.toNat, s)
  | .encOutLen => s.whenNotBusy (.next (s.encOutLen, s))
  | .decWidth => s.whenNotBusy (.next (s.decWidth.toNat, s))
  | .decHeight => s.whenNotBusy (.next (s.decHeight.toNat, s))
  | .decChannels => s.whenNotBusy (.next (s.decChannels.toNat, s))
  | .decColorspace => s.whenNotBusy (.next (s.decColorspace.toNat, s))
  | .decPixLen => s.whenNotBusy (.next (s.decPixLen, s))
  | .pix a => s.whenNotBusy (.next ((s.pix.read a).toNat, s))
  | .str a => s.whenNotBusy (.next ((s.str.read a).toNat, s))

end Sys2Proof.Machine
end

