-- ==== Sys2Proof/Machine/Listing.lean ====
section
/-! DEFINITION. The listing notation of R98 and R99: a chunk written with its decoded operands. -/

namespace Sys2Proof.Machine

/-- One line of a listing (R98, R99). -/
inductive Line where
  | rgb (r g b : Nat)
  | rgba (r g b a : Nat)
  | index (i : Nat)
  | diff (dr dg db : Int)
  /-- `drg` is dr - dg and `dbg` is db - dg. -/
  | luma (dg drg dbg : Int)
  | run (n : Nat)
  /-- The pseudo-operation of R99 for the 14 header bytes. -/
  | header (w h : Word) (c cs : Byte)
  /-- The pseudo-operation of R99 for the end marker. -/
  | fin
  deriving DecidableEq, Repr

/-- The operand ranges of R98. -/
def Line.legal : Line → Bool
  | .rgb r g b => decide (r < 256) && decide (g < 256) && decide (b < 256)
  | .rgba r g b a => decide (r < 256) && decide (g < 256) && decide (b < 256) && decide (a < 256)
  | .index i => decide (i < 64)
  | .diff dr dg db =>
    decide (-2 ≤ dr ∧ dr ≤ 1) && decide (-2 ≤ dg ∧ dg ≤ 1) && decide (-2 ≤ db ∧ db ≤ 1)
  | .luma dg drg dbg =>
    decide (-32 ≤ dg ∧ dg ≤ 31) && decide (-8 ≤ drg ∧ drg ≤ 7) && decide (-8 ≤ dbg ∧ dbg ≤ 7)
  | .run n => decide (1 ≤ n ∧ n ≤ 62)
  | .header _ _ _ _ => true
  | .fin => true

/-- The bytes of a line, by the arithmetic of R98's third column. -/
def Line.bytes : Line → List Byte
  | .rgb r g b => [0xFE, BitVec.ofNat 8 r, BitVec.ofNat 8 g, BitVec.ofNat 8 b]
  | .rgba r g b a => [0xFF, BitVec.ofNat 8 r, BitVec.ofNat 8 g, BitVec.ofNat 8 b, BitVec.ofNat 8 a]
  | .index i => [BitVec.ofNat 8 (0x00 + i)]
  | .diff dr dg db => [BitVec.ofInt 8 (0x40 + (dr + 2) * 16 + (dg + 2) * 4 + (db + 2))]
  | .luma dg drg dbg => [BitVec.ofInt 8 (0x80 + (dg + 32)), BitVec.ofInt 8 ((drg + 8) * 16 + (dbg + 8))]
  | .run n => [BitVec.ofNat 8 (0xC0 + (n - 1))]
  | .header w h c cs => headerBytes w h c cs
  | .fin => endMarker

/-- The chunk a line stands for: its operands with the biases of R90 to R92 put back; the framing is no chunk. -/
def Line.chunk : Line → Option Instr
  | .rgb r g b => some (.rgb (BitVec.ofNat 8 r) (BitVec.ofNat 8 g) (BitVec.ofNat 8 b))
  | .rgba r g b a =>
    some (.rgba (BitVec.ofNat 8 r) (BitVec.ofNat 8 g) (BitVec.ofNat 8 b) (BitVec.ofNat 8 a))
  | .index i => some (.index (BitVec.ofNat 6 i))
  | .diff dr dg db => some (.diff (rebias 2 2 dr) (rebias 2 2 dg) (rebias 2 2 db))
  | .luma dg drg dbg => some (.luma (rebias 6 32 dg) (rebias 4 8 drg) (rebias 4 8 dbg))
  | .run n => some (.run (BitVec.ofNat 6 (n - 1)))
  | .header _ _ _ _ => none
  | .fin => none

end Sys2Proof.Machine
end

