-- ==== Sys2Proof/Machine/Reference.lean ====
section
/-! DEFINITION. The two whole operations as functions of byte lists: R148 (encode) and R185 (decode). They are written
from those rules' own formulas, apart from the step machine, which statements compare with them. -/

namespace Sys2Proof.Machine

/-- The working variables of R148's loop. -/
structure EncLoop where
  out : List Byte
  idx : Vector Word 64
  prev : Word
  runOpen : Bool
  deriving DecidableEq, Repr

/-- Pixel `i` of a byte list (R112). -/
def listPixel (pixels : List Byte) (i c : Nat) : Word :=
  pack (pixels.getD (i * c) 0) (pixels.getD (i * c + 1) 0) (pixels.getD (i * c + 2) 0)
    (if c = 4 then pixels.getD (i * c + 3) 0 else 255)

/-- The last byte of the output so far with its count raised, `last(out) <- last(out) + 1` (R148). -/
def bumpLast : List Byte → List Byte
  | [] => []
  | [b] => [b + 1]
  | b :: bs => b :: bumpLast bs

/-- What a pixel that differs from `prev` appends, by the formulas of R148. -/
def refChunk (cur prev entry : Word) : List Byte :=
  let dr := deltaR cur prev
  let dg := deltaG cur prev
  let db := deltaB cur prev
  let sameA := alpha cur = alpha prev
  if entry = cur then [BitVec.ofNat 8 (pixelHash cur).toNat]
  else if sameA ∧ (-2 ≤ dr ∧ dr ≤ 1) ∧ (-2 ≤ dg ∧ dg ≤ 1) ∧ (-2 ≤ db ∧ db ≤ 1) then
    [BitVec.ofInt 8 (0x40 + (dr + 2) * 16 + (dg + 2) * 4 + (db + 2))]
  else if sameA ∧ (-32 ≤ dg ∧ dg ≤ 31) ∧ (-8 ≤ dr - dg ∧ dr - dg ≤ 7) ∧ (-8 ≤ db - dg ∧ db - dg ≤ 7) then
    [BitVec.ofInt 8 (0x80 + (dg + 32)), BitVec.ofInt 8 ((dr - dg + 8) * 16 + (db - dg + 8))]
  else if sameA then [0xFE, red cur, green cur, blue cur]
  else [0xFF, red cur, green cur, blue cur, alpha cur]

/-- One iteration of R148's loop. -/
def refEncPixel (v : EncLoop) (cur : Word) : EncLoop :=
  let entry := v.idx[(pixelHash cur).toNat]'(pixelHash cur).isLt
  let v' :=
    if cur = v.prev then
      if v.runOpen = false then { v with out := v.out ++ [0xC0], runOpen := true }
      else if v.out.getLast? ≠ some 0xFD then { v with out := bumpLast v.out }
      else { v with out := v.out ++ [0xC0] }
    else { v with out := v.out ++ refChunk cur v.prev entry, runOpen := false }
  { v' with idx := v.idx.set (pixelHash cur).toNat cur (pixelHash cur).isLt, prev := cur }

/-- The loop of R148 for `n` pixels from number `i`. -/
def refEncLoop (pixels : List Byte) (c : Nat) : Nat → Nat → EncLoop → EncLoop
  | 0, _, v => v
  | n + 1, i, v => refEncLoop pixels c n (i + 1) (refEncPixel v (listPixel pixels i c))

/-- `encode(pixels, w, h, c, cs)` of R148, `outCap` being OUT_CAP. -/
def refEncode (outCap : Option Nat) (pixels : List Byte) (w h : Word) (c cs : Byte) :
    Except ErrorKind (List Byte) :=
  if (c ≠ 3 ∧ c ≠ 4) ∨ 1 < cs.toNat ∨ pixels.length ≠ w.toNat * h.toNat * c.toNat then .error .badArguments
  else
    let v := refEncLoop pixels c.toNat (w.toNat * h.toNat) 0
      ⟨headerBytes w h c cs, Vector.replicate 64 0, 0x000000FF, false⟩
    let out := v.out ++ [0, 0, 0, 0, 0, 0, 0, 1]
    if fits outCap out.length then .ok out else .error .outOfCapacity

/-- The working variables of R185's loop. -/
structure DecLoop where
  out : List Byte
  idx : Vector Word 64
  prev : Word
  cursor : Nat
  remaining : Nat
  deriving DecidableEq, Repr

/-- Byte `k` of the input of R185. -/
def inputByte (s : List Byte) (k : Nat) : Byte := s.getD k 0

/-- `prev` with three integer deltas added modulo 256, in the words of R180 and R181. -/
def refAdd (p : Word) (dr dg db : Int) : Word :=
  pack (BitVec.ofInt 8 (((red p).toNat + dr) % 256)) (BitVec.ofInt 8 (((green p).toNat + dg) % 256))
    (BitVec.ofInt 8 (((blue p).toNat + db) % 256)) (alpha p)

/-- Length, pixel and count of the chunk at `cursor`, by the first byte (R176 to R182, R185). -/
def refChunkAt (s : List Byte) (v : DecLoop) : Nat × Word × Nat :=
  let b0 := inputByte s v.cursor
  let byte (k : Nat) := inputByte s (v.cursor + k)
  let n := b0.toNat
  if b0 = 0xFE then (4, pack (byte 1) (byte 2) (byte 3) (alpha v.prev), 1)
  else if b0 = 0xFF then (5, pack (byte 1) (byte 2) (byte 3) (byte 4), 1)
  else if n < 0x40 then (1, v.idx.getD n 0, 1)
  else if n < 0x80 then (1, refAdd v.prev (n / 16 % 4 - 2) (n / 4 % 4 - 2) (n % 4 - 2), 1)
  else if n < 0xC0 then
    let dg : Int := n % 64 - 32
    let b1 := (byte 1).toNat
    (2, refAdd v.prev ((b1 / 16 : Nat) - 8 + dg) dg ((b1 % 16 : Nat) - 8 + dg), 1)
  else (1, v.prev, n % 64 + 1)

/-- One iteration of R185's loop. -/
def refDecChunk (s : List Byte) (c : Byte) (v : DecLoop) : Except ErrorKind DecLoop :=
  if s.length ≤ v.cursor then .error .unexpectedEof
  else
    let (len, cur, count) := refChunkAt s v
    if s.length < v.cursor + len then .error .unexpectedEof
    else if v.remaining < count then .error .pixelCountMismatch
    else .ok
      { out := v.out ++ (List.replicate count (pixelBytes c cur)).flatten
        idx := v.idx.set (pixelHash cur).toNat cur (pixelHash cur).isLt
        prev := cur
        cursor := v.cursor + len
        remaining := v.remaining - count }

/-- The loop of R185; every chunk lowers `remaining`, so `remaining` iterations are enough fuel. -/
def refDecLoop (s : List Byte) (c : Byte) : Nat → DecLoop → Except ErrorKind DecLoop
  | 0, v => .ok v
  | fuel + 1, v =>
    if v.remaining = 0 then .ok v
    else
      match refDecChunk s c v with
      | .ok v' => refDecLoop s c fuel v'
      | .error k => .error k

/-- The result of a decode (R185). -/
structure Decoded where
  pixels : List Byte
  width : Word
  height : Word
  channels : Byte
  colorspace : Byte
  deriving DecidableEq, Repr

/-- `decode(s, strict)` of R185, `pixCap` being PIX_CAP. -/
def refDecode (pixCap : Option Nat) (s : List Byte) (strict : Bool) : Except ErrorKind Decoded :=
  let byte := inputByte s
  if s.length < 22 then .error .tooShort
  else if s.take 4 ≠ [0x71, 0x6F, 0x69, 0x66] then .error .badMagic
  else if 1 < (byte 13).toNat then .error .badColorspace
  else if byte 12 ≠ 3 ∧ byte 12 ≠ 4 then .error .badChannels
  else
    let w := be32Value (byte 4) (byte 5) (byte 6) (byte 7)
    let h := be32Value (byte 8) (byte 9) (byte 10) (byte 11)
    let c := byte 12
    if fits pixCap (w.toNat * h.toNat * c.toNat) then
      match refDecLoop s c (w.toNat * h.toNat) ⟨[], Vector.replicate 64 0, 0x000000FF, 14, w.toNat * h.toNat⟩ with
      | .error k => .error k
      | .ok v =>
        if strict ∧ s.drop v.cursor ≠ [0, 0, 0, 0, 0, 0, 0, 1] then .error .pixelCountMismatch
        else .ok ⟨v.out, w, h, c, byte 13⟩
    else .error .outOfCapacity

end Sys2Proof.Machine
end

