-- ==== Sys2Proof/Safety.lean ====
section
/-! DEFINITION. The terms statements use: what a chunk step and a pixel step change and what they leave alone, the
invariant of the block, and what it means for an operation to be over. -/

namespace Sys2Proof.Machine

/-! ### Frames -/

/-- The parameter registers and capacities, which no step writes (R4, R33, R35, R36). -/
structure SameParameters (s t : State) : Prop where
  cfg : t.cfg = s.cfg
  encWidth : t.encWidth = s.encWidth
  encHeight : t.encHeight = s.encHeight
  encChannels : t.encChannels = s.encChannels
  encColorspace : t.encColorspace = s.encColorspace
  encPixLen : t.encPixLen = s.encPixLen
  decLen : t.decLen = s.decLen
  decStrict : t.decStrict = s.decStrict

/-- The decoder's result registers (R37). -/
structure SameDecResults (s t : State) : Prop where
  decWidth : t.decWidth = s.decWidth
  decHeight : t.decHeight = s.decHeight
  decChannels : t.decChannels = s.decChannels
  decColorspace : t.decColorspace = s.decColorspace
  decPixLen : t.decPixLen = s.decPixLen

/-- `Update(p)` as seen through the registers (R117): the entry of `p` and `prev` hold `p`, every other entry stays. -/
structure UpdatedWith (s t : State) (p : Word) : Prop where
  prev : t.prev = p
  entry : t.idxRead (pixelHash p) = p
  otherEntries : ∀ i, i ≠ pixelHash p → t.idxRead i = s.idxRead i

/-- What a chunk of `length` bytes that emits `count` copies of `pixel` does (R183), and its frame: every register and
every byte of PIX and STR it leaves alone. -/
structure ChunkEffect (s t : State) (length count : Nat) (pixel : Word) : Prop where
  cur : t.cur = pixel
  updated : UpdatedWith s t pixel
  cursor : t.cursor = s.cursor + length
  remaining : t.remaining + count = s.remaining
  phase : t.phase = if 0 < t.remaining then .body else .fin
  pixWr : t.pixWr = s.pixWr + count * s.decChannels.toNat
  stored : ∀ k, k < count →
    t.pix.readBytes (s.pixWr + k * s.decChannels.toNat) s.decChannels.toNat = pixelBytes s.decChannels pixel
  otherBytes : ∀ a, a < s.pixWr ∨ s.pixWr + count * s.decChannels.toNat ≤ a → t.pix.read a = s.pix.read a
  str : ∀ a, t.str.read a = s.str.read a
  status : t.status = s.status
  err : t.err = s.err
  op : t.op = s.op
  parameters : SameParameters s t
  results : SameDecResults s t
  encOutLen : t.encOutLen = s.encOutLen
  runOpen : t.runOpen = s.runOpen
  pxPos : t.pxPos = s.pxPos
  outLen : t.outLen = s.outLen
  freeTick : t.freeTick = s.freeTick

/-- What a pixel step does to the registers, `out_len` apart (R135), and what it leaves alone: every other register and
every byte of PIX. -/
structure PixelEffect (s t : State) (pixel : Word) (runOpen : Bool) : Prop where
  cur : t.cur = pixel
  updated : UpdatedWith s t pixel
  runOpen : t.runOpen = runOpen
  pxPos : t.pxPos = s.pxPos + 1
  phase : t.phase = if s.pxPos + 1 < s.encPixels then .body else .fin
  pix : ∀ a, t.pix.read a = s.pix.read a
  status : t.status = s.status
  err : t.err = s.err
  op : t.op = s.op
  parameters : SameParameters s t
  results : SameDecResults s t
  encOutLen : t.encOutLen = s.encOutLen
  cursor : t.cursor = s.cursor
  remaining : t.remaining = s.remaining
  pixWr : t.pixWr = s.pixWr
  freeTick : t.freeTick = s.freeTick

/-- STR after `bytes` are appended: they stand at `out_len`, `out_len` moves past them, every other byte stays (R133). -/
structure Appended (s t : State) (bytes : List Byte) : Prop where
  outLen : t.outLen = s.outLen + bytes.length
  written : t.str.readBytes s.outLen bytes.length = bytes
  otherBytes : ∀ a, a < s.outLen ∨ s.outLen + bytes.length ≤ a → t.str.read a = s.str.read a

/-- A pixel step that appends `bytes`: it does so, or raises `OutOfCapacity` where they do not fit (R133, R135). That the
rest of STR, IDX, `prev` and the positions stay after the error is the model's reading (log 4, log 5, log 12). -/
def AppendStep (s : State) (pixel : Word) (bytes : List Byte) (runOpen : Bool) : Prop :=
  (fits s.cfg.outCap (s.outLen + bytes.length) = true →
    ∃ t, step s = .next t ∧ PixelEffect s t pixel runOpen ∧ Appended s t bytes)
  ∧ (fits s.cfg.outCap (s.outLen + bytes.length) = false →
    ∃ t, step s = .next t ∧ t.status = .error ∧ t.err = ErrorKind.outOfCapacity.code ∧ t.encOutLen = 0
      ∧ t.prev = s.prev ∧ t.idx = s.idx ∧ t.pxPos = s.pxPos ∧ t.outLen = s.outLen ∧ t.op = s.op
      ∧ t.pix = s.pix ∧ (∀ a, s.outLen ≤ a → t.str.read a = s.str.read a)
      ∧ SameParameters s t ∧ SameDecResults s t)

/-- The pixel the encoder fetches (R134). -/
def State.nextPixel (s : State) : Word := loadPixel s.pix s.pxPos s.encChannels

/-! ### The invariant -/

/-- The working state of an encode past its start step. -/
structure EncRunning (s : State) : Prop where
  channels : s.encChannels = 3 ∨ s.encChannels = 4
  colorspace : s.encColorspace.toNat ≤ 1
  pixLen : s.encPixLen = s.encPixels * s.encChannels.toNat
  pxPos : s.pxPos ≤ s.encPixels
  phase : s.phase = .body ↔ s.pxPos < s.encPixels
  outLenLow : 14 ≤ s.outLen
  /-- R151: at most `c + 1` bytes a pixel. -/
  outLenHigh : s.outLen ≤ 14 + s.pxPos * (s.encChannels.toNat + 1)
  capacity : fits s.cfg.outCap s.outLen = true
  /-- The invariant of R30: an open run's tail byte is a RUN chunk. -/
  openRun : s.runOpen = true → 15 ≤ s.outLen ∧ 0xC0 ≤ s.tailByte.toNat ∧ s.tailByte.toNat ≤ 0xFD
  header : s.str.readBytes 0 14 = headerBytes s.encWidth s.encHeight s.encChannels s.encColorspace
  /-- The invariant of R43. -/
  entry : 0 < s.pxPos → s.idxRead (pixelHash s.prev) = s.prev
  first : s.pxPos = 0 → s.prev = initialPrev ∧ s.idx = clearedIdx ∧ s.runOpen = false
  /-- R150: three-channel mode. -/
  opaqueAlpha : s.encChannels = 3 →
    alpha s.prev = 255 ∧ ∀ i, s.idxRead i = 0 ∨ alpha (s.idxRead i) = 255

/-- The working state of a decode past its start step. -/
structure DecRunning (s : State) : Prop where
  channels : s.decChannels = 3 ∨ s.decChannels = 4
  colorspace : s.decColorspace.toNat ≤ 1
  decLen : 22 ≤ s.decLen
  cursorLow : 14 ≤ s.cursor
  cursorHigh : s.cursor ≤ s.decLen
  remaining : s.remaining ≤ s.decPixels
  phase : s.phase = .body ↔ 0 < s.remaining
  /-- The invariant of R28. -/
  pixWr : s.pixWr = (s.decPixels - s.remaining) * s.decChannels.toNat
  capacity : fits s.cfg.pixCap s.decBytes = true
  decPixLen : s.decPixLen = 0
  /-- The invariant of R43. -/
  entry : s.remaining < s.decPixels → s.idxRead (pixelHash s.prev) = s.prev

/-- The codes an operation can end with: 1 to 4, 6, 8, 9, 10; never 5 or 7 (R189, R218), nor 11 to 15 (R210). -/
def raisableCodes : List (BitVec 4) := [1, 2, 3, 4, 6, 8, 9, 10]

/-- The invariant of the block between steps. -/
structure Inv (s : State) : Prop where
  pixWf : s.pix.wf = true
  strWf : s.str.wf = true
  /-- R39: ERR is 0 unless STATUS is ERROR. -/
  errZero : s.status ≠ .error → s.err = 0
  errCode : s.status = .error → s.err ∈ raisableCodes
  /-- R34: no partial results of an encode. -/
  encError : s.status = .error → s.op = .enc → s.encOutLen = 0
  /-- R37: no partial results of a decode. -/
  decError : s.status = .error → s.op = .dec →
    s.decWidth = 0 ∧ s.decHeight = 0 ∧ s.decChannels = 0 ∧ s.decColorspace = 0 ∧ s.decPixLen = 0
  /-- R37, R187 (1): a finished decode's length. -/
  decDone : s.status = .done → s.op = .dec →
    (s.decChannels = 3 ∨ s.decChannels = 4) ∧ s.decColorspace.toNat ≤ 1 ∧ s.decPixLen = s.decBytes
  encRunning : s.status = .busy → s.op = .enc → s.phase ≠ .start → EncRunning s
  decRunning : s.status = .busy → s.op = .dec → s.phase ≠ .start → DecRunning s

/-! ### Runs -/

/-- No operation runs: STATUS is not BUSY (R38). -/
def State.halted (s : State) : Prop := s.status ≠ .busy

/-- How many bytes the running operation has written to its output buffer before the step at hand: none at P_START,
whatever an earlier operation left in the positions. -/
def State.writtenBytes (s : State) : Nat :=
  match s.phase, s.op with
  | .start, _ => 0
  | _, .enc => s.outLen
  | _, .dec => s.pixWr

/-- `n` steps of the block. -/
def runSteps (n : Nat) (s : State) : Host.Outcome State Fault Refusal :=
  match n with
  | 0 => .next s
  | n + 1 =>
    match step s with
    | .next t => runSteps n t
    | .fault f => .fault f
    | .refused r => .refused r

/-- The number whose bytes, lowest first, are a chunk's bytes: its table word (spec/opcode_table.json's numbering). -/
def wordValue : List Byte → Nat
  | [] => 0
  | b :: bs => b.toNat + 256 * wordValue bs

/-- `s` with one chunk's table word stored where the next chunk is fetched. -/
def State.withChunk (s : State) (i : Instr) : State :=
  s.withFetchWord (8 * (encode i).length) (wordValue (encode i))

end Sys2Proof.Machine
end

