-- ==== Sys2Proof/Certificates/Slice0/Obligations.lean ====
section
/-! DEFINITION. The statements for the provers. -/

section

open Sys2Proof Sys2Proof.Machine

/-! ### Encodings -/

/-- Decoding the bytes of a well-formed chunk gives the chunk back and leaves the bytes after it (R82 to R88). -/
def Obligations.DecodeUndoesEncode : Prop :=
  ∀ (i : Instr) (rest : List Byte), i.wellFormed = true → decode (encode i ++ rest) = .ok (i, rest)

/-- Whatever the decoder accepts is well formed and is exactly the encoding of what it answers: no word has two
meanings, and no RUN with payload 62 or 63 is ever decoded (R94). -/
def Obligations.EncodeUndoesDecode : Prop :=
  ∀ (bs rest : List Byte) (i : Instr), decode bs = .ok (i, rest) → i.wellFormed = true ∧ encode i ++ rest = bs

/-- The first byte alone tells the length, and too few bytes is the decoder's only reason to refuse (R96, R97). -/
def Obligations.FirstByteTellsLength : Prop :=
  decode [] = .error .noByte
  ∧ ∀ (b0 : Byte) (bs : List Byte) (n : Nat),
    n = (if b0 = 0xFE then 4 else if b0 = 0xFF then 5 else if 0x80 ≤ b0.toNat ∧ b0.toNat < 0xC0 then 2 else 1) →
    (n ≤ bs.length + 1 → ∃ i, decode (b0 :: bs) = .ok (i, (b0 :: bs).drop n))
    ∧ (bs.length + 1 < n → decode (b0 :: bs) = .error (.truncated n))

/-- The division of the 256 first bytes among the six kinds, with each field at its place (R82). -/
def Obligations.FirstByteSelectsChunk : Prop :=
  ∀ (b0 b1 b2 b3 b4 : Byte) (rest : List Byte),
    (b0.toNat < 0x40 → ∃ idx : BitVec 6,
      decode (b0 :: b1 :: b2 :: b3 :: b4 :: rest) = .ok (.index idx, b1 :: b2 :: b3 :: b4 :: rest)
      ∧ b0.toNat = idx.toNat)
    ∧ (0x40 ≤ b0.toNat ∧ b0.toNat < 0x80 → ∃ fr fg fb : BitVec 2,
      decode (b0 :: b1 :: b2 :: b3 :: b4 :: rest) = .ok (.diff fr fg fb, b1 :: b2 :: b3 :: b4 :: rest)
      ∧ b0.toNat = 0x40 + fr.toNat * 16 + fg.toNat * 4 + fb.toNat)
    ∧ (0x80 ≤ b0.toNat ∧ b0.toNat < 0xC0 → ∃ (fg : BitVec 6) (frg fbg : BitVec 4),
      decode (b0 :: b1 :: b2 :: b3 :: b4 :: rest) = .ok (.luma fg frg fbg, b2 :: b3 :: b4 :: rest)
      ∧ b0.toNat = 0x80 + fg.toNat ∧ b1.toNat = frg.toNat * 16 + fbg.toNat)
    ∧ (0xC0 ≤ b0.toNat ∧ b0.toNat ≤ 0xFD → ∃ fr : BitVec 6,
      decode (b0 :: b1 :: b2 :: b3 :: b4 :: rest) = .ok (.run fr, b1 :: b2 :: b3 :: b4 :: rest)
      ∧ b0.toNat = 0xC0 + fr.toNat)
    ∧ (b0.toNat = 0xFE →
      decode (b0 :: b1 :: b2 :: b3 :: b4 :: rest) = .ok (.rgb b1 b2 b3, b4 :: rest))
    ∧ (b0.toNat = 0xFF →
      decode (b0 :: b1 :: b2 :: b3 :: b4 :: rest) = .ok (.rgba b1 b2 b3 b4, rest))

/-- Words written out bit by bit from R83 to R88 decode to their chunks: a sanity statement. -/
def Obligations.WrittenOutWordsDecode : Prop :=
  decode [0b11111110, 0x01, 0x02, 0x03] = .ok (.rgb 1 2 3, [])
  ∧ decode [0b11111111, 0x01, 0x02, 0x03, 0x04] = .ok (.rgba 1 2 3 4, [])
  ∧ decode [0b00100101] = .ok (.index 0b100101, [])
  ∧ decode [0b01111001] = .ok (.diff 0b11 0b10 0b01, [])
  ∧ decode [0b10100011, 0b10010110] = .ok (.luma 0b100011 0b1001 0b0110, [])
  ∧ decode [0b11111101] = .ok (.run 0b111101, [])

/-- A chunk's table word decodes to the chunk (the numbering of spec/opcode_table.json; R83 to R88). -/
def Obligations.TableWordDecodes : Prop :=
  ∀ i : Instr, i.wellFormed = true →
    decodeTableWord (8 * (encode i).length) (wordValue (encode i)) = some i

/-- A legal listing line of R98 stands for a well-formed chunk whose bytes are those of R98's table. -/
def Obligations.ListingLineBytes : Prop :=
  ∀ (l : Line) (i : Instr), l.legal = true → l.chunk = some i → i.wellFormed = true ∧ encode i = l.bytes

/-- The biases (R90, R91, R92): each stored field is the signed value plus its bias, over the whole signed range. -/
def Obligations.BiasedFieldsCoverSignedRange : Prop :=
  (∀ f : BitVec 2, -2 ≤ unbias 2 f ∧ unbias 2 f ≤ 1 ∧ rebias 2 2 (unbias 2 f) = f)
  ∧ (∀ f : BitVec 6, -32 ≤ unbias 32 f ∧ unbias 32 f ≤ 31 ∧ rebias 6 32 (unbias 32 f) = f)
  ∧ (∀ f : BitVec 4, -8 ≤ unbias 8 f ∧ unbias 8 f ≤ 7 ∧ rebias 4 8 (unbias 8 f) = f)
  ∧ (∀ d : Int, -2 ≤ d → d ≤ 1 → unbias 2 (rebias 2 2 d) = d)
  ∧ (∀ d : Int, -32 ≤ d → d ≤ 31 → unbias 32 (rebias 6 32 d) = d)
  ∧ (∀ d : Int, -8 ≤ d → d ≤ 7 → unbias 8 (rebias 4 8 d) = d)
  ∧ (∀ fr : BitVec 6, (Instr.run fr).wellFormed = true ↔ 1 ≤ runCount fr ∧ runCount fr ≤ 62)

/-! ### Shared primitives -/

/-- `pack` and `unpack` are inverse, and the packed word is `R<<24 | G<<16 | B<<8 | A` (R110, R111). -/
def Obligations.PackUnpackInverse : Prop :=
  (∀ r g b a : Byte,
    (pack r g b a).toNat = r.toNat * 2 ^ 24 + g.toNat * 2 ^ 16 + b.toNat * 2 ^ 8 + a.toNat
    ∧ red (pack r g b a) = r ∧ green (pack r g b a) = g ∧ blue (pack r g b a) = b ∧ alpha (pack r g b a) = a)
  ∧ ∀ w : Word, pack (red w) (green w) (blue w) (alpha w) = w

/-- The hash formula, over the integers (R113). -/
def Obligations.HashIsWeightedSumModulo64 : Prop :=
  ∀ r g b a : Byte,
    (pixelHash (pack r g b a)).toNat = (r.toNat * 3 + g.toNat * 5 + b.toNat * 7 + a.toNat * 11) % 64

/-- The big-endian word codec and its inverse (R118, R119). -/
def Obligations.BigEndianWordCodec : Prop :=
  (∀ v : Word, ∃ b0 b1 b2 b3 : Byte, be32Bytes v = [b0, b1, b2, b3] ∧ be32Value b0 b1 b2 b3 = v)
  ∧ ∀ b0 b1 b2 b3 : Byte,
    (be32Value b0 b1 b2 b3).toNat = b0.toNat * 2 ^ 24 + b1.toNat * 2 ^ 16 + b2.toNat * 2 ^ 8 + b3.toNat
    ∧ be32Bytes (be32Value b0 b1 b2 b3) = [b0, b1, b2, b3]

/-- `LoadPixel(i, c)`: the bytes at `i * c`, alpha 255 with 3 channels (R112). -/
def Obligations.LoadPixelReadsComponents : Prop :=
  ∀ (m : Memory) (i : Nat),
    loadPixel m i 4 = pack (m.read (i * 4)) (m.read (i * 4 + 1)) (m.read (i * 4 + 2)) (m.read (i * 4 + 3))
    ∧ loadPixel m i 3 = pack (m.read (i * 3)) (m.read (i * 3 + 1)) (m.read (i * 3 + 2)) 255

/-- `StorePixel(a, c, w)`: R, G, B and, with 4 channels, A at `a` up; every other byte stays (R116). -/
def Obligations.StorePixelWritesComponents : Prop :=
  ∀ (m : Memory) (a : Nat) (w : Word), m.wf = true →
    ((storePixel m a 4 w).read a = red w ∧ (storePixel m a 4 w).read (a + 1) = green w
      ∧ (storePixel m a 4 w).read (a + 2) = blue w ∧ (storePixel m a 4 w).read (a + 3) = alpha w
      ∧ ∀ x, x < a ∨ a + 4 ≤ x → (storePixel m a 4 w).read x = m.read x)
    ∧ ((storePixel m a 3 w).read a = red w ∧ (storePixel m a 3 w).read (a + 1) = green w
      ∧ (storePixel m a 3 w).read (a + 2) = blue w
      ∧ ∀ x, x < a ∨ a + 3 ≤ x → (storePixel m a 3 w).read x = m.read x)

/-- `Update(p)`: the entry of `p` and `prev` take `p`, every other entry and everything else stays (R117). -/
def Obligations.UpdateWritesEntryAndPrev : Prop :=
  ∀ (s : State) (p : Word),
    UpdatedWith s (s.update p) p ∧ { s.update p with idx := s.idx, prev := s.prev } = s

/-- `Append`: all the bytes or none, by the capacity check (R133). -/
def Obligations.AppendTakesAllOrRaises : Prop :=
  ∀ (s : State) (bs : List Byte), s.str.wf = true →
    ((∀ c, s.cfg.outCap = some c → s.outLen + bs.length ≤ c) →
      ∃ t, s.append bs = .ok t ∧ Appended s t bs ∧ { t with str := s.str, outLen := s.outLen } = s)
    ∧ (∀ c, s.cfg.outCap = some c → c < s.outLen + bs.length →
      s.append bs = .raised .outOfCapacity s.outLen
      ∧ (s.append bs).settle s = s.raiseError .outOfCapacity s.outLen)

/-! ### Chunks -/

/-- RGB (R177) and the common tail (R183). -/
def Obligations.RgbTakesThreeComponents : Prop :=
  ∀ (r g b : Byte) (s : State), s.chunkDue → s.pix.wf = true →
    (s.decLen < s.cursor + 4 → exec (.rgb r g b) s = .next (s.raiseError .unexpectedEof s.pixWr))
    ∧ (s.cursor + 4 ≤ s.decLen → ∃ t, exec (.rgb r g b) s = .next t ∧ ChunkEffect s t 4 1 t.cur
      ∧ red t.cur = r ∧ green t.cur = g ∧ blue t.cur = b ∧ alpha t.cur = alpha s.prev)

/-- RGBA (R178) and the common tail (R183). -/
def Obligations.RgbaTakesFourComponents : Prop :=
  ∀ (r g b a : Byte) (s : State), s.chunkDue → s.pix.wf = true →
    (s.decLen < s.cursor + 5 → exec (.rgba r g b a) s = .next (s.raiseError .unexpectedEof s.pixWr))
    ∧ (s.cursor + 5 ≤ s.decLen → ∃ t, exec (.rgba r g b a) s = .next t ∧ ChunkEffect s t 5 1 t.cur
      ∧ red t.cur = r ∧ green t.cur = g ∧ blue t.cur = b ∧ alpha t.cur = a)

/-- INDEX (R179) and the common tail (R183). -/
def Obligations.IndexTakesTableEntry : Prop :=
  ∀ (idx : BitVec 6) (s : State), s.chunkDue → s.pix.wf = true →
    ∃ t, exec (.index idx) s = .next t ∧ ChunkEffect s t 1 1 (s.idxRead idx)

/-- DIFF (R180) and the common tail (R183): signed deltas, wrapping additions, alpha kept. -/
def Obligations.DiffAddsDeltas : Prop :=
  ∀ (fr fg fb : BitVec 2) (s : State), s.chunkDue → s.pix.wf = true →
    ∃ t, exec (.diff fr fg fb) s = .next t ∧ ChunkEffect s t 1 1 t.cur
      ∧ ((red t.cur).toNat : Int) = ((red s.prev).toNat + ((fr.toNat : Int) - 2)) % 256
      ∧ ((green t.cur).toNat : Int) = ((green s.prev).toNat + ((fg.toNat : Int) - 2)) % 256
      ∧ ((blue t.cur).toNat : Int) = ((blue s.prev).toNat + ((fb.toNat : Int) - 2)) % 256
      ∧ alpha t.cur = alpha s.prev

/-- LUMA (R181) and the common tail (R183). -/
def Obligations.LumaAddsDeltas : Prop :=
  ∀ (fg : BitVec 6) (frg fbg : BitVec 4) (s : State), s.chunkDue → s.pix.wf = true →
    (s.decLen < s.cursor + 2 → exec (.luma fg frg fbg) s = .next (s.raiseError .unexpectedEof s.pixWr))
    ∧ (s.cursor + 2 ≤ s.decLen → ∃ t, exec (.luma fg frg fbg) s = .next t ∧ ChunkEffect s t 2 1 t.cur
      ∧ ((red t.cur).toNat : Int)
        = ((red s.prev).toNat + ((frg.toNat : Int) - 8 + ((fg.toNat : Int) - 32))) % 256
      ∧ ((green t.cur).toNat : Int) = ((green s.prev).toNat + ((fg.toNat : Int) - 32)) % 256
      ∧ ((blue t.cur).toNat : Int)
        = ((blue s.prev).toNat + ((fbg.toNat : Int) - 8 + ((fg.toNat : Int) - 32))) % 256
      ∧ alpha t.cur = alpha s.prev)

/-- RUN (R182) and the common tail (R183): the two checks in order, then `count` copies of `prev`. -/
def Obligations.RunRepeatsPrev : Prop :=
  ∀ (fr : BitVec 6) (s : State), s.chunkDue → s.pix.wf = true →
    (62 ≤ fr.toNat → exec (.run fr) s = .next (s.raiseError .illegalRun s.pixWr))
    ∧ (fr.toNat < 62 → s.remaining < fr.toNat + 1 →
      exec (.run fr) s = .next (s.raiseError .pixelCountMismatch s.pixWr))
    ∧ (fr.toNat < 62 → fr.toNat + 1 ≤ s.remaining →
      ∃ t, exec (.run fr) s = .next t ∧ ChunkEffect s t 1 (fr.toNat + 1) s.prev)

/-- THE MODEL'S CHOICE (log 8): a chunk in a state in which no chunk step is due stops with the fault of that name. -/
def Obligations.ChunkNotDueStops : Prop :=
  ∀ (i : Instr) (s : State), ¬ s.chunkDue → exec i s = .fault .chunkNotDue

/-- A step in P_BODY of a decode runs the chunk whose bytes stand at `cursor`, and adds nothing around it (R170, R176). -/
def Obligations.StepRunsChunkAtCursor : Prop :=
  ∀ (i : Instr) (s : State), i.wellFormed = true → s.chunkDue →
    s.cursor + (encode i).length ≤ s.decLen →
    s.str.readBytes s.cursor (encode i).length = encode i →
    step s = exec i s

/-- A table word stored by `withFetchWord` is what the next step runs, from any state (log 10). -/
def Obligations.StepRunsFetchWord : Prop :=
  ∀ (i : Instr) (s : State), i.wellFormed = true → s.str.wf = true →
    (s.withChunk i).chunkDue ∧ step (s.withChunk i) = exec i (s.withChunk i)

/-- `UnexpectedEof` is raised by a chunk step exactly when there is no byte at `cursor` or the chunk there extends past
the input, and by nothing else: not by the end step, not by the encoder (R214). -/
def Obligations.UnexpectedEofExactlyOnShortInput : Prop :=
  (∀ s : State, s.chunkDue →
    ((∃ t, step s = .next t ∧ t.status = .error ∧ t.err = 4)
      ↔ s.decLen ≤ s.cursor ∨ s.decLen < s.cursor + chunkLength (s.str.read s.cursor)))
  ∧ ∀ s t : State, step s = .next t → t.err = 4 → s.err ≠ 4 → s.op = .dec ∧ s.phase = .body

/-- A step leaves ERR as it was or puts one of the codes 1 to 4, 6, 8, 9, 10 there: never `IllegalRun` (5), never
`IoFailure` (7), never 11 to 15 (R189, R210, R215, R218). -/
def Obligations.StepNeverRaisesIllegalRun : Prop :=
  ∀ s t : State, step s = .next t →
    t.err = s.err ∨ t.err ∈ ([1, 2, 3, 4, 6, 8, 9, 10] : List (BitVec 4))

/-! ### Errors, halting, the host -/

/-- `raise Error(K)` in full (R222): the code, STATUS, the running operation's result registers; the input buffer and the
parameter registers stay, and so do the output bytes the operation had not written (the model's reading, log 4). -/
def Obligations.RaiseErrorEffect : Prop :=
  ∀ (s : State) (k : ErrorKind) (n : Nat),
    (s.raiseError k n).err = k.code ∧ (s.raiseError k n).status = .error
    ∧ SameParameters s (s.raiseError k n)
    ∧ (s.op = .enc → (s.raiseError k n).encOutLen = 0 ∧ SameDecResults s (s.raiseError k n)
      ∧ (s.raiseError k n).pix = s.pix
      ∧ ∀ a, n ≤ a → (s.raiseError k n).str.read a = s.str.read a)
    ∧ (s.op = .dec → (s.raiseError k n).decPixLen = 0 ∧ (s.raiseError k n).decWidth = 0
      ∧ (s.raiseError k n).decHeight = 0 ∧ (s.raiseError k n).decChannels = 0
      ∧ (s.raiseError k n).decColorspace = 0 ∧ (s.raiseError k n).encOutLen = s.encOutLen
      ∧ (s.raiseError k n).str = s.str
      ∧ ∀ a, n ≤ a → (s.raiseError k n).pix.read a = s.pix.read a)

/-- No step changes anything while STATUS is IDLE, DONE or ERROR (R38, R224, R243; log 7). -/
def Obligations.HaltedBlockStays : Prop :=
  ∀ s : State, s.status ≠ .busy → step s = .next s

/-- A start command begins the operation, or is ignored while BUSY (R32, R244). -/
def Obligations.StartCommandEffect : Prop :=
  ∀ (c : Command) (s : State),
    (s.status ≠ .busy → ∃ t, hostMove (.command c) s = .next t ∧ t.status = .busy ∧ t.err = 0 ∧ t.phase = .start
      ∧ t.op = (match c with | .startEnc => .enc | .startDec => .dec)
      ∧ { t with status := s.status, err := s.err, phase := s.phase, op := s.op } = s)
    ∧ (s.status = .busy → hostMove (.command c) s = .next s)

/-- While BUSY every host write but a command and every read but STATUS, ERR and CMD is refused (R66, R249; log 9).
Otherwise a buffer write puts the byte there and leaves every other byte and every other field alone, and a buffer read
gives the byte and changes nothing. STATUS and ERR can be read at any time (R40). -/
def Obligations.HostOwnsBuffersOnlyWhenNotBusy : Prop :=
  ∀ (a : Nat) (b : Byte) (s : State),
    (s.status = .busy →
      (∀ m : HostMove, (∀ c, m ≠ .command c) → m ≠ .hardwareReset → hostMove m s = .refused .hostAccessWhileBusy)
      ∧ ∀ r : HostReg, r ≠ .status → r ≠ .err → r ≠ .cmd → hostRead r s = .refused .hostAccessWhileBusy)
    ∧ (s.status ≠ .busy → s.pix.wf = true → s.str.wf = true →
      (∃ t, hostMove (.pix a b) s = .next t ∧ t.pix.read a = b ∧ (∀ x, x ≠ a → t.pix.read x = s.pix.read x)
        ∧ { t with pix := s.pix } = s)
      ∧ (∃ t, hostMove (.str a b) s = .next t ∧ t.str.read a = b ∧ (∀ x, x ≠ a → t.str.read x = s.str.read x)
        ∧ { t with str := s.str } = s)
      ∧ hostRead (.pix a) s = .next ((s.pix.read a).toNat, s) ∧ hostRead (.str a) s = .next ((s.str.read a).toNat, s))
    ∧ hostRead .status s = .next (s.status.code.toNat, s) ∧ hostRead .err s = .next (s.err.toNat, s)

/-- No move of the host breaks the invariant (the moves as log 9 and log 13 make them). -/
def Obligations.HostMovesKeepInv : Prop :=
  ∀ (m : HostMove) (s t : State), Inv s → hostMove m s = .next t → Inv t

/-- What hardware reset leaves, at power-on and from any state: the values R240 gives. -/
def Obligations.ResetValues : Prop :=
  ∀ s t : State, t = State.reset ∨ hostMove .hardwareReset s = .next t →
    t.status = .idle ∧ t.err = 0 ∧ t.encOutLen = 0 ∧ t.decWidth = 0 ∧ t.decHeight = 0 ∧ t.decChannels = 0
    ∧ t.decColorspace = 0 ∧ t.decPixLen = 0

/-- The invariant holds after reset (R240; the buffers empty by log 2). -/
def Obligations.ResetMeetsInv : Prop := Inv State.reset

/-! ### The encoder -/

/-- The argument check: `BadArguments` exactly on a bad channel count, colorspace or length, and then nothing is
written (R131, R217). -/
def Obligations.EncodeRejectsBadArguments : Prop :=
  ∀ s : State, s.status = .busy → s.op = .enc → s.phase = .start → s.err = 0 →
    ∃ t, step s = .next t
      ∧ ((t.status = .error ∧ t.err = 8) ↔
        ((s.encChannels ≠ 3 ∧ s.encChannels ≠ 4) ∨ 1 < s.encColorspace.toNat
          ∨ s.encPixLen ≠ s.encWidth.toNat * s.encHeight.toNat * s.encChannels.toNat))
      ∧ (t.err = 8 → t.encOutLen = 0 ∧ t.str = s.str ∧ t.pix = s.pix ∧ SameParameters s t)

/-- The start step of an encode whose arguments are legal: initial state and header, or `OutOfCapacity` (R132). -/
def Obligations.EncodeStartInitialises : Prop :=
  ∀ s : State, s.status = .busy → s.op = .enc → s.phase = .start → s.str.wf = true →
    (s.encChannels = 3 ∨ s.encChannels = 4) → s.encColorspace.toNat ≤ 1 →
    s.encPixLen = s.encWidth.toNat * s.encHeight.toNat * s.encChannels.toNat →
    (fits s.cfg.outCap 14 = true → ∃ t, step s = .next t
      ∧ (∀ i, t.idxRead i = 0) ∧ t.prev = 0x000000FF ∧ t.runOpen = false ∧ t.pxPos = 0 ∧ t.outLen = 14
      ∧ t.encOutLen = 0 ∧ t.status = .busy ∧ t.op = .enc ∧ t.err = s.err
      ∧ t.phase = (if 0 < s.encWidth.toNat * s.encHeight.toNat then .body else .fin)
      ∧ t.str.readBytes 0 14 = [0x71, 0x6F, 0x69, 0x66] ++ be32Bytes s.encWidth ++ be32Bytes s.encHeight
        ++ [s.encChannels, s.encColorspace]
      ∧ (∀ a, 14 ≤ a → t.str.read a = s.str.read a)
      ∧ t.pix = s.pix ∧ SameParameters s t ∧ SameDecResults s t)
    ∧ (fits s.cfg.outCap 14 = false → ∃ t, step s = .next t ∧ t.status = .error ∧ t.err = 10 ∧ t.encOutLen = 0
      ∧ t.pix = s.pix ∧ SameParameters s t ∧ SameDecResults s t)

/-- Run start (R138).
What stays after a capacity error is the model's reading (log 4, log 5, log 12, log 15). -/
def Obligations.RunStartAppendsCount1 : Prop :=
  ∀ s : State, s.pixelDue → s.str.wf = true → s.nextPixel = s.prev → s.runOpen = false →
    AppendStep s s.nextPixel [0xC0] true

/-- Run extension (R139): the tail byte's count goes up in place, nothing is appended, nothing else of STR moves. -/
def Obligations.RunExtensionRaisesTailByte : Prop :=
  ∀ s : State, s.pixelDue → s.str.wf = true → s.nextPixel = s.prev → s.runOpen = true →
    s.str.read (s.outLen - 1) ≠ 0xFD →
    ∃ t, step s = .next t ∧ PixelEffect s t s.nextPixel true ∧ t.outLen = s.outLen
      ∧ t.str.read (s.outLen - 1) = s.str.read (s.outLen - 1) + 1
      ∧ ∀ a, a ≠ s.outLen - 1 → t.str.read a = s.str.read a

/-- Run overflow (R140, R252): a fresh RUN of count 1 after the full byte, the flag kept.
What stays after a capacity error is the model's reading (log 4, log 5, log 12, log 15). -/
def Obligations.RunOverflowAppendsFreshRun : Prop :=
  ∀ s : State, s.pixelDue → s.str.wf = true → s.nextPixel = s.prev → s.runOpen = true →
    s.str.read (s.outLen - 1) = 0xFD → AppendStep s s.nextPixel [0xC0] true

/-- INDEX is emitted on a table hit, whatever the deltas and alpha, and closes the run (R141, R142).
What stays after a capacity error is the model's reading (log 4, log 5, log 12, log 15). -/
def Obligations.EncoderEmitsIndexOnHit : Prop :=
  ∀ s : State, s.pixelDue → s.str.wf = true → s.nextPixel ≠ s.prev →
    s.idxRead (pixelHash s.nextPixel) = s.nextPixel →
    AppendStep s s.nextPixel [BitVec.ofNat 8 (pixelHash s.nextPixel).toNat] false

/-- DIFF is emitted where there is no hit, alpha is unchanged and the unwrapped deltas are in [-2, +1] (R137, R143).
What stays after a capacity error is the model's reading (log 4, log 5, log 12, log 15). -/
def Obligations.EncoderEmitsDiff : Prop :=
  ∀ (s : State) (dr dg db : Int), s.pixelDue → s.str.wf = true → s.nextPixel ≠ s.prev →
    s.idxRead (pixelHash s.nextPixel) ≠ s.nextPixel → alpha s.nextPixel = alpha s.prev →
    dr = (red s.nextPixel).toNat - (red s.prev).toNat →
    dg = (green s.nextPixel).toNat - (green s.prev).toNat →
    db = (blue s.nextPixel).toNat - (blue s.prev).toNat →
    (-2 ≤ dr ∧ dr ≤ 1) ∧ (-2 ≤ dg ∧ dg ≤ 1) ∧ (-2 ≤ db ∧ db ≤ 1) →
    AppendStep s s.nextPixel [BitVec.ofInt 8 (0x40 + (dr + 2) * 16 + (dg + 2) * 4 + (db + 2))] false

/-- LUMA is emitted where DIFF does not apply and the unwrapped deltas fit (R137, R144).
What stays after a capacity error is the model's reading (log 4, log 5, log 12, log 15). -/
def Obligations.EncoderEmitsLuma : Prop :=
  ∀ (s : State) (dr dg db : Int), s.pixelDue → s.str.wf = true → s.nextPixel ≠ s.prev →
    s.idxRead (pixelHash s.nextPixel) ≠ s.nextPixel → alpha s.nextPixel = alpha s.prev →
    dr = (red s.nextPixel).toNat - (red s.prev).toNat →
    dg = (green s.nextPixel).toNat - (green s.prev).toNat →
    db = (blue s.nextPixel).toNat - (blue s.prev).toNat →
    ¬ ((-2 ≤ dr ∧ dr ≤ 1) ∧ (-2 ≤ dg ∧ dg ≤ 1) ∧ (-2 ≤ db ∧ db ≤ 1)) →
    (-32 ≤ dg ∧ dg ≤ 31) ∧ (-8 ≤ dr - dg ∧ dr - dg ≤ 7) ∧ (-8 ≤ db - dg ∧ db - dg ≤ 7) →
    AppendStep s s.nextPixel
      [BitVec.ofInt 8 (0x80 + (dg + 32)), BitVec.ofInt 8 ((dr - dg + 8) * 16 + (db - dg + 8))] false

/-- RGB is emitted where alpha is unchanged and neither DIFF nor LUMA applies; a wrapped delta does not count
(R137, R145).
What stays after a capacity error is the model's reading (log 4, log 5, log 12, log 15). -/
def Obligations.EncoderEmitsRgb : Prop :=
  ∀ (s : State) (dr dg db : Int), s.pixelDue → s.str.wf = true → s.nextPixel ≠ s.prev →
    s.idxRead (pixelHash s.nextPixel) ≠ s.nextPixel → alpha s.nextPixel = alpha s.prev →
    dr = (red s.nextPixel).toNat - (red s.prev).toNat →
    dg = (green s.nextPixel).toNat - (green s.prev).toNat →
    db = (blue s.nextPixel).toNat - (blue s.prev).toNat →
    ¬ ((-2 ≤ dr ∧ dr ≤ 1) ∧ (-2 ≤ dg ∧ dg ≤ 1) ∧ (-2 ≤ db ∧ db ≤ 1)) →
    ¬ ((-32 ≤ dg ∧ dg ≤ 31) ∧ (-8 ≤ dr - dg ∧ dr - dg ≤ 7) ∧ (-8 ≤ db - dg ∧ db - dg ≤ 7)) →
    AppendStep s s.nextPixel [0xFE, red s.nextPixel, green s.nextPixel, blue s.nextPixel] false

/-- RGBA is emitted where there is no hit and alpha changes (R146).
What stays after a capacity error is the model's reading (log 4, log 5, log 12, log 15). -/
def Obligations.EncoderEmitsRgba : Prop :=
  ∀ s : State, s.pixelDue → s.str.wf = true → s.nextPixel ≠ s.prev →
    s.idxRead (pixelHash s.nextPixel) ≠ s.nextPixel → alpha s.nextPixel ≠ alpha s.prev →
    AppendStep s s.nextPixel
      [0xFF, red s.nextPixel, green s.nextPixel, blue s.nextPixel, alpha s.nextPixel] false

/-- The end step of an encode (R147): the end marker, the length, DONE, or `OutOfCapacity`. That IDX, `prev`,
`cur` and the rest of the working state are kept in DONE is the model's choice (R42 leaves IDX unspecified; log 5), and
that `op` and `phase` are is its reading (R29; log 15). -/
def Obligations.EncodeEndAppendsMarker : Prop :=
  ∀ s : State, s.status = .busy → s.op = .enc → s.phase = .fin → s.str.wf = true →
    (fits s.cfg.outCap (s.outLen + 8) = true → ∃ t, step s = .next t ∧ t.status = .done
      ∧ t.encOutLen = s.outLen + 8 ∧ Appended s t [0, 0, 0, 0, 0, 0, 0, 1]
      ∧ { t with status := s.status, encOutLen := s.encOutLen, str := s.str, outLen := s.outLen } = s)
    ∧ (fits s.cfg.outCap (s.outLen + 8) = false → ∃ t, step s = .next t ∧ t.status = .error ∧ t.err = 10
      ∧ t.encOutLen = 0 ∧ t.pix = s.pix ∧ SameParameters s t)

/-- The encoder's output only grows, and only the tail byte of an open run is ever rewritten (R25, R250). -/
def Obligations.EncoderOutputPrefixIsFinal : Prop :=
  ∀ s t : State, s.status = .busy → s.op = .enc → s.phase ≠ .start → step s = .next t → t.status ≠ .error →
    s.outLen ≤ t.outLen
    ∧ (∀ a, a + 1 < s.outLen → t.str.read a = s.str.read a)
    ∧ (s.runOpen = false → ∀ a, a < s.outLen → t.str.read a = s.str.read a)

/-! ### The decoder -/

/-- The checks of the decoder's start step, in order: the first that fails gives the error, the five result registers
are 0 (R171 to R174, R221, R222). That PIX is untouched after the error is the model's reading (log 4). -/
def Obligations.DecodeStartChecksInOrder : Prop :=
  ∀ s : State, s.status = .busy → s.op = .dec → s.phase = .start →
    let fails (code : BitVec 4) := ∃ t, step s = .next t ∧ t.status = .error ∧ t.err = code
      ∧ t.decWidth = 0 ∧ t.decHeight = 0 ∧ t.decChannels = 0 ∧ t.decColorspace = 0 ∧ t.decPixLen = 0
      ∧ t.pix = s.pix ∧ t.str = s.str ∧ SameParameters s t
    let goodMagic := s.str.read 0 = 0x71 ∧ s.str.read 1 = 0x6F ∧ s.str.read 2 = 0x69 ∧ s.str.read 3 = 0x66
    (s.decLen < 22 → fails 1)
    ∧ (22 ≤ s.decLen → ¬ goodMagic → fails 2)
    ∧ (22 ≤ s.decLen → goodMagic → 1 < (s.str.read 13).toNat → fails 3)
    ∧ (22 ≤ s.decLen → goodMagic → (s.str.read 13).toNat ≤ 1 → s.str.read 12 ≠ 3 → s.str.read 12 ≠ 4 → fails 9)

/-- The decoder's start step once its checks pass: header parsed, state initialised, or `OutOfCapacity` (R175, R222). That
PIX is untouched after the error is the model's reading (log 4). -/
def Obligations.DecodeStartInitialises : Prop :=
  ∀ (s : State) (w h : Word), s.status = .busy → s.op = .dec → s.phase = .start → 22 ≤ s.decLen →
    s.str.readBytes 0 4 = [0x71, 0x6F, 0x69, 0x66] → (s.str.read 13).toNat ≤ 1 →
    (s.str.read 12 = 3 ∨ s.str.read 12 = 4) →
    s.str.readBytes 4 8 = be32Bytes w ++ be32Bytes h →
    (fits s.cfg.pixCap (w.toNat * h.toNat * (s.str.read 12).toNat) = true → ∃ t, step s = .next t
      ∧ t.decWidth = w ∧ t.decHeight = h ∧ t.decChannels = s.str.read 12 ∧ t.decColorspace = s.str.read 13
      ∧ (∀ i, t.idxRead i = 0) ∧ t.prev = 0x000000FF ∧ t.cursor = 14 ∧ t.remaining = w.toNat * h.toNat
      ∧ t.pixWr = 0 ∧ t.decPixLen = 0 ∧ t.status = .busy ∧ t.op = .dec ∧ t.err = s.err
      ∧ t.phase = (if 0 < w.toNat * h.toNat then .body else .fin)
      ∧ t.pix = s.pix ∧ t.str = s.str ∧ t.encOutLen = s.encOutLen ∧ SameParameters s t)
    ∧ (fits s.cfg.pixCap (w.toNat * h.toNat * (s.str.read 12).toNat) = false → ∃ t, step s = .next t
      ∧ t.status = .error ∧ t.err = 10 ∧ t.decWidth = 0 ∧ t.decHeight = 0 ∧ t.decChannels = 0
      ∧ t.decColorspace = 0 ∧ t.decPixLen = 0 ∧ t.pix = s.pix ∧ t.str = s.str ∧ SameParameters s t)

/-- The end step of a decode (R184): lenient ends at once, strict only when exactly the end marker is left. That IDX, `prev`,
`cur` and the rest of the working state are kept in DONE is the model's choice (R42 leaves IDX unspecified; log 5), and
that `op` and `phase` are is its reading (R29; log 15). -/
def Obligations.DecodeEndStrictOrLenient : Prop :=
  ∀ s : State, s.status = .busy → s.op = .dec → s.phase = .fin →
    (s.decStrict = false ∨ (s.decLen = s.cursor + 8 ∧ s.str.readBytes s.cursor 8 = [0, 0, 0, 0, 0, 0, 0, 1]) →
      ∃ t, step s = .next t ∧ t.status = .done ∧ t.decPixLen = s.pixWr
        ∧ { t with status := s.status, decPixLen := s.decPixLen } = s)
    ∧ (s.decStrict = true → ¬ (s.decLen = s.cursor + 8 ∧ s.str.readBytes s.cursor 8 = [0, 0, 0, 0, 0, 0, 0, 1]) →
      ∃ t, step s = .next t ∧ t.status = .error ∧ t.err = 6 ∧ t.decPixLen = 0 ∧ t.decWidth = 0 ∧ t.decHeight = 0
        ∧ t.decChannels = 0 ∧ t.decColorspace = 0 ∧ t.str = s.str ∧ SameParameters s t)

/-- A chunk step that raises no error moves `cursor` on and lowers `remaining` (R187 (3)). -/
def Obligations.ChunkStepMakesProgress : Prop :=
  ∀ s t : State, s.chunkDue → step s = .next t → t.status ≠ .error →
    s.cursor < t.cursor ∧ t.remaining < s.remaining

/-! ### Whole-machine statements -/

/-- No step writes a parameter register or a capacity; a decode never writes STR and an encode never writes PIX
(R33, R35, R36, R54). Nor does a step write `op`, which the start command alone sets (R29, R32); that it is kept by the
step that ends in DONE or ERROR, where R29 gives it no meaning, is the model's reading (log 15). -/
def Obligations.StepsStayInTheirSpaces : Prop :=
  ∀ s t : State, step s = .next t →
    SameParameters s t ∧ t.op = s.op ∧ (s.op = .dec → t.str = s.str ∧ t.encOutLen = s.encOutLen)
    ∧ (s.op = .enc → t.pix = s.pix ∧ SameDecResults s t)

/-- Every step keeps the invariant: canonical memories, ERR and STATUS in step, no partial results, positions in range,
an open run's tail byte a RUN chunk, `IDX[h(prev)] = prev`, alpha 255 in 3-channel mode. -/
def Obligations.StepKeepsInv : Prop :=
  ∀ s t : State, Inv s → step s = .next t → Inv t

/-- In every state that meets the invariant a step answers a next state: the block never faults and never refuses
(R246, R187 (2)). -/
def Obligations.StepAlwaysAnswers : Prop :=
  ∀ s : State, Inv s → ∃ t, step s = .next t

/-- An encode is over after `2 + width * height` steps (R256). -/
def Obligations.EncodeTerminates : Prop :=
  ∀ s : State, s.status = .busy → s.op = .enc → s.phase = .start →
    ∃ t, runSteps (2 + s.encWidth.toNat * s.encHeight.toNat) s = .next t ∧ t.halted

/-- A decode of any bytes is over after `2 + min(DEC_LEN - 14, width * height)` steps (R256, R187 (3)). -/
def Obligations.DecodeTerminates : Prop :=
  ∀ (s : State) (w h : Word), s.status = .busy → s.op = .dec → s.phase = .start →
    s.str.readBytes 4 8 = be32Bytes w ++ be32Bytes h →
    ∃ t, runSteps (2 + min (s.decLen - 14) (w.toNat * h.toNat)) s = .next t ∧ t.halted

/-- Lock-step (R187 (5)): a decoder with the encoder's `prev` and IDX that runs the chunk the encoder selects for a
differing pixel rebuilds exactly that pixel, and both tables and `prev` agree again. -/
def Obligations.SelectedChunkRebuildsPixel : Prop :=
  ∀ (e d : State) (cur : Word) (i : Instr), i = selectChunk cur e.prev (e.idxRead (pixelHash cur)) →
    d.chunkDue → d.prev = e.prev → d.idx = e.idx → d.cursor + (encode i).length ≤ d.decLen →
    ∃ t, exec i d = .next t ∧ t.cur = cur ∧ t.prev = (e.update cur).prev ∧ t.idx = (e.update cur).idx
      ∧ t.cursor = d.cursor + (encode i).length ∧ t.remaining + 1 = d.remaining

/-- The step machine's encode is the function of R148: same stream, or same error kind. -/
def Obligations.EncodeMatchesReference : Prop :=
  ∀ s : State, s.status = .busy → s.op = .enc → s.phase = .start → s.str.wf = true →
    ∃ t, runSteps (2 + s.encWidth.toNat * s.encHeight.toNat) s = .next t
      ∧ match refEncode s.cfg.outCap (s.pix.readBytes 0 s.encPixLen) s.encWidth s.encHeight s.encChannels
          s.encColorspace with
        | .ok out => t.status = .done ∧ t.encOutLen = out.length ∧ t.str.readBytes 0 out.length = out
          ∧ ∀ a, out.length ≤ a → t.str.read a = s.str.read a
        | .error k => t.status = .error ∧ t.err = k.code ∧ t.encOutLen = 0

/-- The step machine's decode is the function of R185: same pixels and metadata, or same error kind. -/
def Obligations.DecodeMatchesReference : Prop :=
  ∀ s : State, s.status = .busy → s.op = .dec → s.phase = .start → s.pix.wf = true →
    ∃ t, runSteps (2 + s.decLen) s = .next t
      ∧ match refDecode s.cfg.pixCap (s.str.readBytes 0 s.decLen) s.decStrict with
        | .ok d => t.status = .done ∧ t.decWidth = d.width ∧ t.decHeight = d.height ∧ t.decChannels = d.channels
          ∧ t.decColorspace = d.colorspace ∧ t.decPixLen = d.pixels.length
          ∧ t.pix.readBytes 0 d.pixels.length = d.pixels
          ∧ ∀ a, d.pixels.length ≤ a → t.pix.read a = s.pix.read a
        | .error k => t.status = .error ∧ t.err = k.code ∧ t.decPixLen = 0 ∧ t.decWidth = 0 ∧ t.decHeight = 0
          ∧ t.decChannels = 0 ∧ t.decColorspace = 0

/-- Lossless round trip (R149 (1)): an encode with legal arguments and room enough, then a decode of its output into a
pixel buffer of any contents, strict or lenient, gives back the header values and every pixel byte. -/
def Obligations.EncodeThenDecodeIsLossless : Prop :=
  ∀ (s : State) (m : Memory) (strict : Bool),
    s.status = .busy → s.op = .enc → s.phase = .start → s.str.wf = true → m.wf = true →
    (s.encChannels = 3 ∨ s.encChannels = 4) → s.encColorspace.toNat ≤ 1 →
    s.encPixLen = s.encWidth.toNat * s.encHeight.toNat * s.encChannels.toNat →
    fits s.cfg.outCap (22 + s.encWidth.toNat * s.encHeight.toNat * (s.encChannels.toNat + 1)) = true →
    fits s.cfg.pixCap s.encPixLen = true →
    ∃ t u, runSteps (2 + s.encWidth.toNat * s.encHeight.toNat) s = .next t ∧ t.status = .done
      ∧ runSteps (2 + s.encWidth.toNat * s.encHeight.toNat)
          (({ t with pix := m, decLen := t.encOutLen, decStrict := strict } : State).writeCmd .startDec) = .next u
      ∧ u.status = .done ∧ u.decWidth = s.encWidth ∧ u.decHeight = s.encHeight ∧ u.decChannels = s.encChannels
      ∧ u.decColorspace = s.encColorspace ∧ u.decPixLen = s.encPixLen
      ∧ u.pix.readBytes 0 s.encPixLen = s.pix.readBytes 0 s.encPixLen

/-- Outside BUSY the host's parameter writes are stored as written, legal or not, and change nothing else, and its reads
of the result registers give their values and change nothing (R33 to R37, R40). A read of CMD gives some value and moves
only the model's own counter (log 6). -/
def Obligations.HostWritesParametersAndReadsResults : Prop :=
  ∀ s : State, s.status ≠ .busy →
    (∀ v, hostMove (.encWidth v) s = .next { s with encWidth := v })
    ∧ (∀ v, hostMove (.encHeight v) s = .next { s with encHeight := v })
    ∧ (∀ v, hostMove (.encChannels v) s = .next { s with encChannels := v })
    ∧ (∀ v, hostMove (.encColorspace v) s = .next { s with encColorspace := v })
    ∧ (∀ n, hostMove (.encPixLen n) s = .next { s with encPixLen := n })
    ∧ (∀ n, hostMove (.decLen n) s = .next { s with decLen := n })
    ∧ (∀ b, hostMove (.decStrict b) s = .next { s with decStrict := b })
    ∧ hostRead .encOutLen s = .next (s.encOutLen, s)
    ∧ hostRead .decWidth s = .next (s.decWidth.toNat, s) ∧ hostRead .decHeight s = .next (s.decHeight.toNat, s)
    ∧ hostRead .decChannels s = .next (s.decChannels.toNat, s)
    ∧ hostRead .decColorspace s = .next (s.decColorspace.toNat, s)
    ∧ hostRead .decPixLen s = .next (s.decPixLen, s)
    ∧ ∃ v, hostRead .cmd s = .next (v, { s with freeTick := s.freeTick + 1 })

/-- Checks before writes (R251): a step that ends in an error has done nothing else, in either engine and any phase. Its
state is the one before it with the error raised, nothing but the bytes of earlier steps counting as written (log 12). -/
def Obligations.ErrorLeavesPreviousState : Prop :=
  ∀ s t : State, s.status = .busy → step s = .next t → t.status = .error →
    ∃ k, t = s.raiseError k s.writtenBytes

end
end

