-- ==== Sys2Proof/Laws/Memory.lean ====
section
/-! SUPPORT. Laws of the byte spaces: reads after writes, the canonical form, byte sequences, stored pixels. -/

namespace Sys2Proof.Machine

/-! ### One byte -/

theorem Memory.wfFrom_of_le {m : Memory} {lo lo' : Nat} (h : Memory.wfFrom lo m = true) (hl : lo' ≤ lo) :
    Memory.wfFrom lo' m = true := by
  cases m with
  | nil => rfl
  | cons e m =>
    simp only [Memory.wfFrom, Bool.and_eq_true, decide_eq_true_eq] at h ⊢
    exact ⟨⟨hl.trans h.1.1, h.1.2⟩, h.2⟩

theorem Memory.read_below {m : Memory} {lo a : Nat} (h : Memory.wfFrom lo m = true) (ha : a < lo) :
    m.read a = Memory.unlisted := by
  induction m generalizing lo with
  | nil => rfl
  | cons e m ih =>
    simp only [Memory.wfFrom, Bool.and_eq_true, decide_eq_true_eq] at h
    rw [Memory.read, if_neg (by omega)]
    exact ih h.2 (by omega)

theorem Memory.write_wfFrom {m : Memory} {lo a : Nat} (v : Byte) (h : Memory.wfFrom lo m = true) (ha : lo ≤ a) :
    Memory.wfFrom lo (m.write a v) = true := by
  induction m generalizing lo with
  | nil =>
    by_cases hv : v = Memory.unlisted <;> simp [Memory.write, Memory.wfFrom, hv, ha]
  | cons e m ih =>
    obtain ⟨k, b⟩ := e
    simp only [Memory.wfFrom, Bool.and_eq_true, decide_eq_true_eq] at h
    obtain ⟨⟨hk, hb⟩, hm⟩ := h
    unfold Memory.write
    split_ifs with h1 h2 h3 h4
    · simp [Memory.wfFrom, hk, hb, hm]
    · simp [Memory.wfFrom, ha, h2, hb, hm, show a + 1 ≤ k from h1]
    · exact Memory.wfFrom_of_le hm (by omega)
    · subst h3
      simp [Memory.wfFrom, ha, h4, hm]
    · simp only [Memory.wfFrom, Bool.and_eq_true, decide_eq_true_eq]
      exact ⟨⟨hk, hb⟩, ih hm (by omega)⟩

/-- Writing keeps the canonical form. -/
theorem Memory.write_wf {m : Memory} (a : Nat) (v : Byte) (h : m.wf = true) : (m.write a v).wf = true :=
  Memory.write_wfFrom v h (Nat.zero_le a)

theorem Memory.read_write_ne (m : Memory) {a x : Nat} (v : Byte) (hx : x ≠ a) :
    (m.write a v).read x = m.read x := by
  have hx' : a ≠ x := fun h => hx h.symm
  induction m with
  | nil => by_cases hv : v = Memory.unlisted <;> simp [Memory.write, Memory.read, hv, hx']
  | cons e m ih =>
    obtain ⟨k, b⟩ := e
    unfold Memory.write
    split_ifs with h1 h2 h3 h4
    · rfl
    · simp [Memory.read, hx']
    · subst h3; simp [Memory.read, hx']
    · subst h3; simp [Memory.read, hx']
    · simp [Memory.read, ih]

theorem Memory.read_write_same_from {m : Memory} {lo a : Nat} (v : Byte) (h : Memory.wfFrom lo m = true) :
    (m.write a v).read a = v := by
  induction m generalizing lo with
  | nil => by_cases hv : v = Memory.unlisted <;> simp [Memory.write, Memory.read, hv]
  | cons e m ih =>
    obtain ⟨k, b⟩ := e
    simp only [Memory.wfFrom, Bool.and_eq_true, decide_eq_true_eq] at h
    obtain ⟨⟨hk, hb⟩, hm⟩ := h
    unfold Memory.write
    split_ifs with h1 h2 h3 h4
    · rw [Memory.read, if_neg (by omega), h2]
      exact Memory.read_below hm (by omega)
    · simp [Memory.read]
    · rw [h4]; exact Memory.read_below hm (by omega)
    · simp [Memory.read]
    · rw [Memory.read, if_neg (by omega)]; exact ih hm

/-- A read after a write to the same address gives the value written. -/
theorem Memory.read_write_same {m : Memory} (a : Nat) (v : Byte) (h : m.wf = true) : (m.write a v).read a = v :=
  Memory.read_write_same_from v h

/-- Everything a write can do to a read. -/
theorem Memory.read_write {m : Memory} (a x : Nat) (v : Byte) (h : m.wf = true) :
    (m.write a v).read x = if x = a then v else m.read x := by
  split_ifs with hx
  · subst hx; exact Memory.read_write_same x v h
  · exact Memory.read_write_ne m v hx

theorem Memory.ext_from {m m' : Memory} {lo : Nat} (h : Memory.wfFrom lo m = true)
    (h' : Memory.wfFrom lo m' = true) (heq : ∀ a, m.read a = m'.read a) : m = m' := by
  induction m generalizing m' lo with
  | nil =>
    cases m' with
    | nil => rfl
    | cons e m' =>
      simp only [Memory.wfFrom, Bool.and_eq_true, decide_eq_true_eq] at h'
      have := heq e.1
      simp [Memory.read] at this
      exact absurd this.symm h'.1.2
  | cons e m ih =>
    obtain ⟨k, b⟩ := e
    simp only [Memory.wfFrom, Bool.and_eq_true, decide_eq_true_eq] at h
    obtain ⟨⟨hk, hb⟩, hm⟩ := h
    cases m' with
    | nil =>
      have := heq k
      simp [Memory.read] at this
      exact absurd this hb
    | cons e' m' =>
      obtain ⟨k', b'⟩ := e'
      simp only [Memory.wfFrom, Bool.and_eq_true, decide_eq_true_eq] at h'
      obtain ⟨⟨hk', hb'⟩, hm'⟩ := h'
      have hkk : k = k' := by
        rcases Nat.lt_trichotomy k k' with hlt | heq' | hgt
        · have := heq k
          rw [Memory.read, if_pos rfl, Memory.read, if_neg (by omega), Memory.read_below hm' (by omega)] at this
          exact absurd this hb
        · exact heq'
        · have := heq k'
          rw [Memory.read, if_neg (by omega), Memory.read_below hm (by omega), Memory.read, if_pos rfl] at this
          exact absurd this.symm hb'
      subst hkk
      have hbb : b = b' := by
        have := heq k
        simpa [Memory.read] using this
      subst hbb
      rw [ih hm hm' fun a => ?_]
      by_cases ha : k = a
      · subst ha
        rw [Memory.read_below hm (by omega), Memory.read_below hm' (by omega)]
      · have := heq a
        simpa [Memory.read, ha] using this

/-- Canonical memories that read alike are equal data. -/
theorem Memory.ext_of_wf {m m' : Memory} (h : m.wf = true) (h' : m'.wf = true)
    (heq : ∀ a, m.read a = m'.read a) : m = m' :=
  Memory.ext_from h h' heq

/-! ### Byte sequences -/

@[simp] theorem Memory.readBytes_length (m : Memory) (a n : Nat) : (m.readBytes a n).length = n := by
  induction n generalizing a with
  | zero => rfl
  | succ n ih => simp [Memory.readBytes, ih]

theorem Memory.readBytes_add (m : Memory) (a n k : Nat) :
    m.readBytes a (n + k) = m.readBytes a n ++ m.readBytes (a + n) k := by
  induction n generalizing a with
  | zero => simp [Memory.readBytes]
  | succ n ih =>
    rw [Nat.succ_add, Memory.readBytes, Memory.readBytes, ih, List.cons_append, Nat.add_assoc, Nat.add_comm 1 n]

theorem Memory.readBytes_getElem? (m : Memory) (a n k : Nat) (hk : k < n) :
    (m.readBytes a n)[k]? = some (m.read (a + k)) := by
  induction n generalizing a k with
  | zero => omega
  | succ n ih =>
    cases k with
    | zero => simp [Memory.readBytes]
    | succ k =>
      rw [Memory.readBytes, List.getElem?_cons_succ, ih (a + 1) k (by omega), show a + 1 + k = a + (k + 1) by omega]

theorem Memory.readBytes_congr {m m' : Memory} {a n : Nat} (h : ∀ k, k < n → m.read (a + k) = m'.read (a + k)) :
    m.readBytes a n = m'.readBytes a n := by
  induction n generalizing a with
  | zero => rfl
  | succ n ih =>
    rw [Memory.readBytes, Memory.readBytes, show m.read a = m'.read a from h 0 (by omega)]
    rw [ih fun k hk => ?_]
    have := h (k + 1) (by omega)
    rwa [show a + (k + 1) = a + 1 + k by omega] at this

theorem Memory.writeBytes_wf {m : Memory} (a : Nat) (bs : List Byte) (h : m.wf = true) :
    (m.writeBytes a bs).wf = true := by
  induction bs generalizing m a with
  | nil => exact h
  | cons b bs ih => exact ih (a + 1) (Memory.write_wf a b h)

/-- A byte sequence leaves every address outside it alone. -/
theorem Memory.read_writeBytes_outside (m : Memory) {a x : Nat} (bs : List Byte)
    (hx : x < a ∨ a + bs.length ≤ x) : (m.writeBytes a bs).read x = m.read x := by
  induction bs generalizing m a with
  | nil => rfl
  | cons b bs ih =>
    rw [List.length_cons] at hx
    rw [Memory.writeBytes, ih (m.write a b) (by omega), Memory.read_write_ne m b (by omega)]

/-- A byte sequence written is read back. -/
theorem Memory.readBytes_writeBytes {m : Memory} (a : Nat) (bs : List Byte) (h : m.wf = true) :
    (m.writeBytes a bs).readBytes a bs.length = bs := by
  induction bs generalizing m a with
  | nil => rfl
  | cons b bs ih =>
    rw [List.length_cons, Memory.readBytes, Memory.writeBytes, ih (a + 1) (Memory.write_wf a b h),
      Memory.read_writeBytes_outside _ _ (Or.inl (Nat.lt_succ_self a)), Memory.read_write_same a b h]

theorem Memory.readBytes_writeBytes_outside (m : Memory) {a x n : Nat} (bs : List Byte)
    (hx : x + n ≤ a ∨ a + bs.length ≤ x) : (m.writeBytes a bs).readBytes x n = m.readBytes x n :=
  Memory.readBytes_congr fun k hk => Memory.read_writeBytes_outside m bs (by omega)

theorem Memory.writeBytes_append (m : Memory) (a : Nat) (bs cs : List Byte) :
    m.writeBytes a (bs ++ cs) = (m.writeBytes a bs).writeBytes (a + bs.length) cs := by
  induction bs generalizing m a with
  | nil => rfl
  | cons b bs ih =>
    rw [List.cons_append, Memory.writeBytes, ih, Memory.writeBytes, List.length_cons,
      show a + 1 + bs.length = a + (bs.length + 1) by omega]

/-! ### The output buffer after an error -/

theorem Memory.scrub_wf {m : Memory} (tick n : Nat) (h : m.wf = true) : (m.scrub tick n).wf = true := by
  induction n with
  | zero => exact h
  | succ n ih => exact Memory.write_wf _ _ ih

/-- The bytes the failed operation had not written keep what they held. -/
theorem Memory.read_scrub_above (m : Memory) {tick n x : Nat} (hx : n ≤ x) : (m.scrub tick n).read x = m.read x := by
  induction n with
  | zero => rfl
  | succ n ih => rw [Memory.scrub, Memory.read_write_ne _ _ (by omega), ih (by omega)]

/-- The bytes it had written are the free values. -/
theorem Memory.read_scrub_below {m : Memory} {tick n x : Nat} (h : m.wf = true) (hx : x < n) :
    (m.scrub tick n).read x = Config.freeByte tick x := by
  induction n with
  | zero => omega
  | succ n ih =>
    rw [Memory.scrub, Memory.read_write _ _ _ (Memory.scrub_wf tick n h)]
    split_ifs with h1
    · rw [h1]
    · exact ih (by omega)

/-! ### Stored pixels -/

theorem pixelBytes_length {c : Byte} (w : Word) (hc : c = 3 ∨ c = 4) : (pixelBytes c w).length = c.toNat := by
  rcases hc with rfl | rfl <;> rfl

theorem storePixels_wf {m : Memory} (c : Byte) (w : Word) (n a : Nat) (h : m.wf = true) :
    (storePixels c w n a m).wf = true := by
  induction n generalizing m a with
  | zero => exact h
  | succ n ih => exact ih _ (Memory.writeBytes_wf a _ h)

/-- Storing pixels leaves every address outside them alone. -/
theorem read_storePixels_outside (m : Memory) {c : Byte} (w : Word) {n a x : Nat} (hc : c = 3 ∨ c = 4)
    (hx : x < a ∨ a + n * c.toNat ≤ x) : (storePixels c w n a m).read x = m.read x := by
  induction n generalizing m a with
  | zero => rfl
  | succ n ih =>
    rw [Nat.succ_mul] at hx
    rw [storePixels, ih _ (by omega), storePixel,
      Memory.read_writeBytes_outside m _ (by rw [pixelBytes_length w hc]; omega)]

/-- Each stored copy is read back. -/
theorem readBytes_storePixels {m : Memory} {c : Byte} (w : Word) {n a k : Nat} (hc : c = 3 ∨ c = 4)
    (h : m.wf = true) (hk : k < n) :
    (storePixels c w n a m).readBytes (a + k * c.toNat) c.toNat = pixelBytes c w := by
  induction n generalizing m a k with
  | zero => omega
  | succ n ih =>
    rw [storePixels]
    cases k with
    | zero =>
      rw [Nat.zero_mul, Nat.add_zero, Memory.readBytes_congr (m' := storePixel m a c w) fun j hj =>
        read_storePixels_outside _ w hc (by omega)]
      have := Memory.readBytes_writeBytes a (pixelBytes c w) h
      rwa [pixelBytes_length w hc] at this
    | succ k =>
      have := ih (m := storePixel m a c w) (a := a + c.toNat) (k := k) (Memory.writeBytes_wf a _ h) (by omega)
      rwa [show a + c.toNat + k * c.toNat = a + (k + 1) * c.toNat by rw [Nat.succ_mul]; omega] at this

end Sys2Proof.Machine
end

