-- ==== Sys2Proof/Laws/Pixels.lean ====
section
/-! SUPPORT. Laws of the packed pixel: its components, and the wrapping addition of deltas. -/

namespace Sys2Proof.Machine

/-- One bit of a packed pixel. -/
theorem pack_getLsbD (r g b a : Byte) (i : Nat) : (pack r g b a).getLsbD i =
    if i < 8 then a.getLsbD i else if i < 16 then b.getLsbD (i - 8)
    else if i < 24 then g.getLsbD (i - 16) else r.getLsbD (i - 24) := by
  simp only [pack, BitVec.getLsbD_append]
  split_ifs <;> first | omega | rfl

@[simp] theorem red_pack (r g b a : Byte) : red (pack r g b a) = r := by
  ext i hi
  simp [red, pack_getLsbD, show ¬ 24 + i < 8 by omega, show ¬ 24 + i < 16 by omega, BitVec.getLsbD_eq_getElem hi]
@[simp] theorem green_pack (r g b a : Byte) : green (pack r g b a) = g := by
  ext i hi
  simp [green, pack_getLsbD, show ¬ 16 + i < 8 by omega, show 16 + i < 24 by omega, BitVec.getLsbD_eq_getElem hi]
@[simp] theorem blue_pack (r g b a : Byte) : blue (pack r g b a) = b := by
  ext i hi
  simp [blue, pack_getLsbD, show 8 + i < 16 by omega, BitVec.getLsbD_eq_getElem hi]
@[simp] theorem alpha_pack (r g b a : Byte) : alpha (pack r g b a) = a := by
  ext i hi
  simp [alpha, pack_getLsbD, hi]

/-- Two packed pixels with equal components are equal (R121). -/
theorem Word.ext_components {v w : Word} (hr : red v = red w) (hg : green v = green w) (hb : blue v = blue w)
    (ha : alpha v = alpha w) : v = w := by
  apply BitVec.eq_of_getLsbD_eq
  intro i hi
  have key (x y : Word) (lo : Nat) (h : x.extractLsb' lo 8 = y.extractLsb' lo 8) (h1 : lo ≤ i) (h2 : i < lo + 8) :
      x.getLsbD i = y.getLsbD i := by
    have := congrArg (fun z => BitVec.getLsbD z (i - lo)) h
    simpa [show i - lo < 8 by omega, show lo + (i - lo) = i by omega] using this
  rcases (by omega : i < 8 ∨ (8 ≤ i ∧ i < 16) ∨ (16 ≤ i ∧ i < 24) ∨ (24 ≤ i ∧ i < 32)) with h | h | h | h
  · exact key v w 0 ha (by omega) (by omega)
  · exact key v w 8 hb h.1 (by omega)
  · exact key v w 16 hg h.1 (by omega)
  · exact key v w 24 hr h.1 (by omega)

@[simp] theorem red_addDeltas (p : Word) (dr dg db : Int) : red (addDeltas p dr dg db) = addDelta (red p) dr :=
  red_pack _ _ _ _
@[simp] theorem green_addDeltas (p : Word) (dr dg db : Int) : green (addDeltas p dr dg db) = addDelta (green p) dg :=
  green_pack _ _ _ _
@[simp] theorem blue_addDeltas (p : Word) (dr dg db : Int) : blue (addDeltas p dr dg db) = addDelta (blue p) db :=
  blue_pack _ _ _ _
@[simp] theorem alpha_addDeltas (p : Word) (dr dg db : Int) : alpha (addDeltas p dr dg db) = alpha p :=
  alpha_pack _ _ _ _

/-- The wrapping addition of a delta is the residue modulo 256 (R180). -/
theorem addDelta_toNat (c : Byte) (d : Int) : ((addDelta c d).toNat : Int) = ((c.toNat : Int) + d) % 256 := by
  simp [addDelta, BitVec.toNat_ofInt]
  omega

/-- A delta added back gives the component it came from, whatever its size. -/
theorem addDelta_delta (new old : Byte) : addDelta old (delta new old) = new := by
  apply BitVec.eq_of_toNat_eq
  have h := addDelta_toNat old (delta new old)
  have := new.isLt
  simp only [delta] at h ⊢
  omega

/-- The hash sum fits 13 bits (R114). -/
theorem hashSum_le (w : Word) : hashSum w ≤ 6630 := by
  have := (red w).isLt
  have := (green w).isLt
  have := (blue w).isLt
  have := (alpha w).isLt
  simp only [hashSum]
  omega

/-- A field of `n` bits whose biased value is in range gives the value back (R90, R91). -/
theorem unbias_rebias {n : Nat} {bias v : Int} (h0 : 0 ≤ v + bias) (h1 : v + bias < 2 ^ n) :
    unbias bias (rebias n bias v) = v := by
  have h1' : v + bias < ((2 ^ n : Nat) : Int) := by exact_mod_cast h1
  simp only [unbias, rebias, BitVec.toNat_ofInt]
  rw [Int.emod_eq_of_lt h0 h1']
  omega

end Sys2Proof.Machine
end

