-- ==== Sys2Proof/Laws/State.lean ====
section
/-! SUPPORT. One lemma per field per named update of State, so that no later proof unfolds a record update. -/

namespace Sys2Proof.Machine

/-! ### `State.update` -/

@[simp] theorem State.update_cfg (s : State) (p : Word) : (s.update p).cfg = s.cfg := rfl
@[simp] theorem State.update_prev (s : State) (p : Word) : (s.update p).prev = p := rfl
@[simp] theorem State.update_cur (s : State) (p : Word) : (s.update p).cur = s.cur := rfl
@[simp] theorem State.update_idx (s : State) (p : Word) :
    (s.update p).idx = s.idx.set (pixelHash p).toNat p (pixelHash p).isLt := rfl
@[simp] theorem State.update_runOpen (s : State) (p : Word) : (s.update p).runOpen = s.runOpen := rfl
@[simp] theorem State.update_op (s : State) (p : Word) : (s.update p).op = s.op := rfl
@[simp] theorem State.update_phase (s : State) (p : Word) : (s.update p).phase = s.phase := rfl
@[simp] theorem State.update_pxPos (s : State) (p : Word) : (s.update p).pxPos = s.pxPos := rfl
@[simp] theorem State.update_outLen (s : State) (p : Word) : (s.update p).outLen = s.outLen := rfl
@[simp] theorem State.update_cursor (s : State) (p : Word) : (s.update p).cursor = s.cursor := rfl
@[simp] theorem State.update_remaining (s : State) (p : Word) : (s.update p).remaining = s.remaining := rfl
@[simp] theorem State.update_pixWr (s : State) (p : Word) : (s.update p).pixWr = s.pixWr := rfl
@[simp] theorem State.update_status (s : State) (p : Word) : (s.update p).status = s.status := rfl
@[simp] theorem State.update_err (s : State) (p : Word) : (s.update p).err = s.err := rfl
@[simp] theorem State.update_encWidth (s : State) (p : Word) : (s.update p).encWidth = s.encWidth := rfl
@[simp] theorem State.update_encHeight (s : State) (p : Word) : (s.update p).encHeight = s.encHeight := rfl
@[simp] theorem State.update_encChannels (s : State) (p : Word) : (s.update p).encChannels = s.encChannels := rfl
@[simp] theorem State.update_encColorspace (s : State) (p : Word) :
    (s.update p).encColorspace = s.encColorspace := rfl
@[simp] theorem State.update_encPixLen (s : State) (p : Word) : (s.update p).encPixLen = s.encPixLen := rfl
@[simp] theorem State.update_encOutLen (s : State) (p : Word) : (s.update p).encOutLen = s.encOutLen := rfl
@[simp] theorem State.update_decLen (s : State) (p : Word) : (s.update p).decLen = s.decLen := rfl
@[simp] theorem State.update_decStrict (s : State) (p : Word) : (s.update p).decStrict = s.decStrict := rfl
@[simp] theorem State.update_decWidth (s : State) (p : Word) : (s.update p).decWidth = s.decWidth := rfl
@[simp] theorem State.update_decHeight (s : State) (p : Word) : (s.update p).decHeight = s.decHeight := rfl
@[simp] theorem State.update_decChannels (s : State) (p : Word) : (s.update p).decChannels = s.decChannels := rfl
@[simp] theorem State.update_decColorspace (s : State) (p : Word) :
    (s.update p).decColorspace = s.decColorspace := rfl
@[simp] theorem State.update_decPixLen (s : State) (p : Word) : (s.update p).decPixLen = s.decPixLen := rfl
@[simp] theorem State.update_pix (s : State) (p : Word) : (s.update p).pix = s.pix := rfl
@[simp] theorem State.update_str (s : State) (p : Word) : (s.update p).str = s.str := rfl
@[simp] theorem State.update_freeTick (s : State) (p : Word) : (s.update p).freeTick = s.freeTick := rfl

/-! ### `State.raiseError` -/

@[simp] theorem State.raiseError_cfg (s : State) (k : ErrorKind) (n : Nat) : (s.raiseError k n).cfg = s.cfg := rfl
@[simp] theorem State.raiseError_prev (s : State) (k : ErrorKind) (n : Nat) : (s.raiseError k n).prev = s.prev := rfl
@[simp] theorem State.raiseError_cur (s : State) (k : ErrorKind) (n : Nat) : (s.raiseError k n).cur = s.cur := rfl
@[simp] theorem State.raiseError_idx (s : State) (k : ErrorKind) (n : Nat) : (s.raiseError k n).idx = s.idx := rfl
@[simp] theorem State.raiseError_runOpen (s : State) (k : ErrorKind) (n : Nat) :
    (s.raiseError k n).runOpen = s.runOpen := rfl
@[simp] theorem State.raiseError_op (s : State) (k : ErrorKind) (n : Nat) : (s.raiseError k n).op = s.op := rfl
@[simp] theorem State.raiseError_phase (s : State) (k : ErrorKind) (n : Nat) :
    (s.raiseError k n).phase = s.phase := rfl
@[simp] theorem State.raiseError_pxPos (s : State) (k : ErrorKind) (n : Nat) :
    (s.raiseError k n).pxPos = s.pxPos := rfl
@[simp] theorem State.raiseError_outLen (s : State) (k : ErrorKind) (n : Nat) :
    (s.raiseError k n).outLen = s.outLen := rfl
@[simp] theorem State.raiseError_cursor (s : State) (k : ErrorKind) (n : Nat) :
    (s.raiseError k n).cursor = s.cursor := rfl
@[simp] theorem State.raiseError_remaining (s : State) (k : ErrorKind) (n : Nat) :
    (s.raiseError k n).remaining = s.remaining := rfl
@[simp] theorem State.raiseError_pixWr (s : State) (k : ErrorKind) (n : Nat) :
    (s.raiseError k n).pixWr = s.pixWr := rfl
@[simp] theorem State.raiseError_status (s : State) (k : ErrorKind) (n : Nat) :
    (s.raiseError k n).status = .error := rfl
@[simp] theorem State.raiseError_err (s : State) (k : ErrorKind) (n : Nat) : (s.raiseError k n).err = k.code := rfl
@[simp] theorem State.raiseError_encWidth (s : State) (k : ErrorKind) (n : Nat) :
    (s.raiseError k n).encWidth = s.encWidth := rfl
@[simp] theorem State.raiseError_encHeight (s : State) (k : ErrorKind) (n : Nat) :
    (s.raiseError k n).encHeight = s.encHeight := rfl
@[simp] theorem State.raiseError_encChannels (s : State) (k : ErrorKind) (n : Nat) :
    (s.raiseError k n).encChannels = s.encChannels := rfl
@[simp] theorem State.raiseError_encColorspace (s : State) (k : ErrorKind) (n : Nat) :
    (s.raiseError k n).encColorspace = s.encColorspace := rfl
@[simp] theorem State.raiseError_encPixLen (s : State) (k : ErrorKind) (n : Nat) :
    (s.raiseError k n).encPixLen = s.encPixLen := rfl
@[simp] theorem State.raiseError_encOutLen (s : State) (k : ErrorKind) (n : Nat) :
    (s.raiseError k n).encOutLen = if s.op = .enc then 0 else s.encOutLen := rfl
@[simp] theorem State.raiseError_decLen (s : State) (k : ErrorKind) (n : Nat) :
    (s.raiseError k n).decLen = s.decLen := rfl
@[simp] theorem State.raiseError_decStrict (s : State) (k : ErrorKind) (n : Nat) :
    (s.raiseError k n).decStrict = s.decStrict := rfl
@[simp] theorem State.raiseError_decWidth (s : State) (k : ErrorKind) (n : Nat) :
    (s.raiseError k n).decWidth = if s.op = .dec then 0 else s.decWidth := rfl
@[simp] theorem State.raiseError_decHeight (s : State) (k : ErrorKind) (n : Nat) :
    (s.raiseError k n).decHeight = if s.op = .dec then 0 else s.decHeight := rfl
@[simp] theorem State.raiseError_decChannels (s : State) (k : ErrorKind) (n : Nat) :
    (s.raiseError k n).decChannels = if s.op = .dec then 0 else s.decChannels := rfl
@[simp] theorem State.raiseError_decColorspace (s : State) (k : ErrorKind) (n : Nat) :
    (s.raiseError k n).decColorspace = if s.op = .dec then 0 else s.decColorspace := rfl
@[simp] theorem State.raiseError_decPixLen (s : State) (k : ErrorKind) (n : Nat) :
    (s.raiseError k n).decPixLen = if s.op = .dec then 0 else s.decPixLen := rfl
@[simp] theorem State.raiseError_pix (s : State) (k : ErrorKind) (n : Nat) :
    (s.raiseError k n).pix = if s.op = .dec then s.pix.scrub s.freeTick n else s.pix := rfl
@[simp] theorem State.raiseError_str (s : State) (k : ErrorKind) (n : Nat) :
    (s.raiseError k n).str = if s.op = .enc then s.str.scrub s.freeTick n else s.str := rfl
@[simp] theorem State.raiseError_freeTick (s : State) (k : ErrorKind) (n : Nat) :
    (s.raiseError k n).freeTick = s.freeTick + 1 := rfl

/-! ### `State.appended` -/

@[simp] theorem State.appended_cfg (s : State) (bs : List Byte) : (s.appended bs).cfg = s.cfg := rfl
@[simp] theorem State.appended_prev (s : State) (bs : List Byte) : (s.appended bs).prev = s.prev := rfl
@[simp] theorem State.appended_cur (s : State) (bs : List Byte) : (s.appended bs).cur = s.cur := rfl
@[simp] theorem State.appended_idx (s : State) (bs : List Byte) : (s.appended bs).idx = s.idx := rfl
@[simp] theorem State.appended_runOpen (s : State) (bs : List Byte) : (s.appended bs).runOpen = s.runOpen := rfl
@[simp] theorem State.appended_op (s : State) (bs : List Byte) : (s.appended bs).op = s.op := rfl
@[simp] theorem State.appended_phase (s : State) (bs : List Byte) : (s.appended bs).phase = s.phase := rfl
@[simp] theorem State.appended_pxPos (s : State) (bs : List Byte) : (s.appended bs).pxPos = s.pxPos := rfl
@[simp] theorem State.appended_outLen (s : State) (bs : List Byte) :
    (s.appended bs).outLen = s.outLen + bs.length := rfl
@[simp] theorem State.appended_cursor (s : State) (bs : List Byte) : (s.appended bs).cursor = s.cursor := rfl
@[simp] theorem State.appended_remaining (s : State) (bs : List Byte) : (s.appended bs).remaining = s.remaining := rfl
@[simp] theorem State.appended_pixWr (s : State) (bs : List Byte) : (s.appended bs).pixWr = s.pixWr := rfl
@[simp] theorem State.appended_status (s : State) (bs : List Byte) : (s.appended bs).status = s.status := rfl
@[simp] theorem State.appended_err (s : State) (bs : List Byte) : (s.appended bs).err = s.err := rfl
@[simp] theorem State.appended_encWidth (s : State) (bs : List Byte) : (s.appended bs).encWidth = s.encWidth := rfl
@[simp] theorem State.appended_encHeight (s : State) (bs : List Byte) : (s.appended bs).encHeight = s.encHeight := rfl
@[simp] theorem State.appended_encChannels (s : State) (bs : List Byte) :
    (s.appended bs).encChannels = s.encChannels := rfl
@[simp] theorem State.appended_encColorspace (s : State) (bs : List Byte) :
    (s.appended bs).encColorspace = s.encColorspace := rfl
@[simp] theorem State.appended_encPixLen (s : State) (bs : List Byte) : (s.appended bs).encPixLen = s.encPixLen := rfl
@[simp] theorem State.appended_encOutLen (s : State) (bs : List Byte) : (s.appended bs).encOutLen = s.encOutLen := rfl
@[simp] theorem State.appended_decLen (s : State) (bs : List Byte) : (s.appended bs).decLen = s.decLen := rfl
@[simp] theorem State.appended_decStrict (s : State) (bs : List Byte) : (s.appended bs).decStrict = s.decStrict := rfl
@[simp] theorem State.appended_decWidth (s : State) (bs : List Byte) : (s.appended bs).decWidth = s.decWidth := rfl
@[simp] theorem State.appended_decHeight (s : State) (bs : List Byte) : (s.appended bs).decHeight = s.decHeight := rfl
@[simp] theorem State.appended_decChannels (s : State) (bs : List Byte) :
    (s.appended bs).decChannels = s.decChannels := rfl
@[simp] theorem State.appended_decColorspace (s : State) (bs : List Byte) :
    (s.appended bs).decColorspace = s.decColorspace := rfl
@[simp] theorem State.appended_decPixLen (s : State) (bs : List Byte) : (s.appended bs).decPixLen = s.decPixLen := rfl
@[simp] theorem State.appended_pix (s : State) (bs : List Byte) : (s.appended bs).pix = s.pix := rfl
@[simp] theorem State.appended_str (s : State) (bs : List Byte) :
    (s.appended bs).str = s.str.writeBytes s.outLen bs := rfl
@[simp] theorem State.appended_freeTick (s : State) (bs : List Byte) : (s.appended bs).freeTick = s.freeTick := rfl

/-! ### `State.emitChunk` -/

@[simp] theorem State.emitChunk_cfg (s : State) (len count : Nat) (p : Word) :
    (s.emitChunk len count p).cfg = s.cfg := rfl
@[simp] theorem State.emitChunk_prev (s : State) (len count : Nat) (p : Word) :
    (s.emitChunk len count p).prev = p := rfl
@[simp] theorem State.emitChunk_cur (s : State) (len count : Nat) (p : Word) :
    (s.emitChunk len count p).cur = p := rfl
@[simp] theorem State.emitChunk_idx (s : State) (len count : Nat) (p : Word) :
    (s.emitChunk len count p).idx = s.idx.set (pixelHash p).toNat p (pixelHash p).isLt := rfl
@[simp] theorem State.emitChunk_runOpen (s : State) (len count : Nat) (p : Word) :
    (s.emitChunk len count p).runOpen = s.runOpen := rfl
@[simp] theorem State.emitChunk_op (s : State) (len count : Nat) (p : Word) :
    (s.emitChunk len count p).op = s.op := rfl
@[simp] theorem State.emitChunk_phase (s : State) (len count : Nat) (p : Word) :
    (s.emitChunk len count p).phase = chunkPhase (s.remaining - count) := rfl
@[simp] theorem State.emitChunk_pxPos (s : State) (len count : Nat) (p : Word) :
    (s.emitChunk len count p).pxPos = s.pxPos := rfl
@[simp] theorem State.emitChunk_outLen (s : State) (len count : Nat) (p : Word) :
    (s.emitChunk len count p).outLen = s.outLen := rfl
@[simp] theorem State.emitChunk_cursor (s : State) (len count : Nat) (p : Word) :
    (s.emitChunk len count p).cursor = s.cursor + len := rfl
@[simp] theorem State.emitChunk_remaining (s : State) (len count : Nat) (p : Word) :
    (s.emitChunk len count p).remaining = s.remaining - count := rfl
@[simp] theorem State.emitChunk_pixWr (s : State) (len count : Nat) (p : Word) :
    (s.emitChunk len count p).pixWr = s.pixWr + count * s.decChannels.toNat := rfl
@[simp] theorem State.emitChunk_status (s : State) (len count : Nat) (p : Word) :
    (s.emitChunk len count p).status = s.status := rfl
@[simp] theorem State.emitChunk_err (s : State) (len count : Nat) (p : Word) :
    (s.emitChunk len count p).err = s.err := rfl
@[simp] theorem State.emitChunk_encWidth (s : State) (len count : Nat) (p : Word) :
    (s.emitChunk len count p).encWidth = s.encWidth := rfl
@[simp] theorem State.emitChunk_encHeight (s : State) (len count : Nat) (p : Word) :
    (s.emitChunk len count p).encHeight = s.encHeight := rfl
@[simp] theorem State.emitChunk_encChannels (s : State) (len count : Nat) (p : Word) :
    (s.emitChunk len count p).encChannels = s.encChannels := rfl
@[simp] theorem State.emitChunk_encColorspace (s : State) (len count : Nat) (p : Word) :
    (s.emitChunk len count p).encColorspace = s.encColorspace := rfl
@[simp] theorem State.emitChunk_encPixLen (s : State) (len count : Nat) (p : Word) :
    (s.emitChunk len count p).encPixLen = s.encPixLen := rfl
@[simp] theorem State.emitChunk_encOutLen (s : State) (len count : Nat) (p : Word) :
    (s.emitChunk len count p).encOutLen = s.encOutLen := rfl
@[simp] theorem State.emitChunk_decLen (s : State) (len count : Nat) (p : Word) :
    (s.emitChunk len count p).decLen = s.decLen := rfl
@[simp] theorem State.emitChunk_decStrict (s : State) (len count : Nat) (p : Word) :
    (s.emitChunk len count p).decStrict = s.decStrict := rfl
@[simp] theorem State.emitChunk_decWidth (s : State) (len count : Nat) (p : Word) :
    (s.emitChunk len count p).decWidth = s.decWidth := rfl
@[simp] theorem State.emitChunk_decHeight (s : State) (len count : Nat) (p : Word) :
    (s.emitChunk len count p).decHeight = s.decHeight := rfl
@[simp] theorem State.emitChunk_decChannels (s : State) (len count : Nat) (p : Word) :
    (s.emitChunk len count p).decChannels = s.decChannels := rfl
@[simp] theorem State.emitChunk_decColorspace (s : State) (len count : Nat) (p : Word) :
    (s.emitChunk len count p).decColorspace = s.decColorspace := rfl
@[simp] theorem State.emitChunk_decPixLen (s : State) (len count : Nat) (p : Word) :
    (s.emitChunk len count p).decPixLen = s.decPixLen := rfl
@[simp] theorem State.emitChunk_pix (s : State) (len count : Nat) (p : Word) :
    (s.emitChunk len count p).pix = storePixels s.decChannels p count s.pixWr s.pix := rfl
@[simp] theorem State.emitChunk_str (s : State) (len count : Nat) (p : Word) :
    (s.emitChunk len count p).str = s.str := rfl
@[simp] theorem State.emitChunk_freeTick (s : State) (len count : Nat) (p : Word) :
    (s.emitChunk len count p).freeTick = s.freeTick := rfl

/-! ### `State.encInit` -/

@[simp] theorem State.encInit_cfg (s : State) : (s.encInit).cfg = s.cfg := rfl
@[simp] theorem State.encInit_prev (s : State) : (s.encInit).prev = initialPrev := rfl
@[simp] theorem State.encInit_cur (s : State) : (s.encInit).cur = s.cur := rfl
@[simp] theorem State.encInit_idx (s : State) : (s.encInit).idx = clearedIdx := rfl
@[simp] theorem State.encInit_runOpen (s : State) : (s.encInit).runOpen = false := rfl
@[simp] theorem State.encInit_op (s : State) : (s.encInit).op = s.op := rfl
@[simp] theorem State.encInit_phase (s : State) : (s.encInit).phase = s.phase := rfl
@[simp] theorem State.encInit_pxPos (s : State) : (s.encInit).pxPos = 0 := rfl
@[simp] theorem State.encInit_outLen (s : State) : (s.encInit).outLen = 0 := rfl
@[simp] theorem State.encInit_cursor (s : State) : (s.encInit).cursor = s.cursor := rfl
@[simp] theorem State.encInit_remaining (s : State) : (s.encInit).remaining = s.remaining := rfl
@[simp] theorem State.encInit_pixWr (s : State) : (s.encInit).pixWr = s.pixWr := rfl
@[simp] theorem State.encInit_status (s : State) : (s.encInit).status = s.status := rfl
@[simp] theorem State.encInit_err (s : State) : (s.encInit).err = s.err := rfl
@[simp] theorem State.encInit_encWidth (s : State) : (s.encInit).encWidth = s.encWidth := rfl
@[simp] theorem State.encInit_encHeight (s : State) : (s.encInit).encHeight = s.encHeight := rfl
@[simp] theorem State.encInit_encChannels (s : State) : (s.encInit).encChannels = s.encChannels := rfl
@[simp] theorem State.encInit_encColorspace (s : State) : (s.encInit).encColorspace = s.encColorspace := rfl
@[simp] theorem State.encInit_encPixLen (s : State) : (s.encInit).encPixLen = s.encPixLen := rfl
@[simp] theorem State.encInit_encOutLen (s : State) : (s.encInit).encOutLen = 0 := rfl
@[simp] theorem State.encInit_decLen (s : State) : (s.encInit).decLen = s.decLen := rfl
@[simp] theorem State.encInit_decStrict (s : State) : (s.encInit).decStrict = s.decStrict := rfl
@[simp] theorem State.encInit_decWidth (s : State) : (s.encInit).decWidth = s.decWidth := rfl
@[simp] theorem State.encInit_decHeight (s : State) : (s.encInit).decHeight = s.decHeight := rfl
@[simp] theorem State.encInit_decChannels (s : State) : (s.encInit).decChannels = s.decChannels := rfl
@[simp] theorem State.encInit_decColorspace (s : State) : (s.encInit).decColorspace = s.decColorspace := rfl
@[simp] theorem State.encInit_decPixLen (s : State) : (s.encInit).decPixLen = s.decPixLen := rfl
@[simp] theorem State.encInit_pix (s : State) : (s.encInit).pix = s.pix := rfl
@[simp] theorem State.encInit_str (s : State) : (s.encInit).str = s.str := rfl
@[simp] theorem State.encInit_freeTick (s : State) : (s.encInit).freeTick = s.freeTick := rfl

/-! ### `State.setPhase` -/

@[simp] theorem State.setPhase_cfg (s : State) (p : Phase) : (s.setPhase p).cfg = s.cfg := rfl
@[simp] theorem State.setPhase_prev (s : State) (p : Phase) : (s.setPhase p).prev = s.prev := rfl
@[simp] theorem State.setPhase_cur (s : State) (p : Phase) : (s.setPhase p).cur = s.cur := rfl
@[simp] theorem State.setPhase_idx (s : State) (p : Phase) : (s.setPhase p).idx = s.idx := rfl
@[simp] theorem State.setPhase_runOpen (s : State) (p : Phase) : (s.setPhase p).runOpen = s.runOpen := rfl
@[simp] theorem State.setPhase_op (s : State) (p : Phase) : (s.setPhase p).op = s.op := rfl
@[simp] theorem State.setPhase_phase (s : State) (p : Phase) : (s.setPhase p).phase = p := rfl
@[simp] theorem State.setPhase_pxPos (s : State) (p : Phase) : (s.setPhase p).pxPos = s.pxPos := rfl
@[simp] theorem State.setPhase_outLen (s : State) (p : Phase) : (s.setPhase p).outLen = s.outLen := rfl
@[simp] theorem State.setPhase_cursor (s : State) (p : Phase) : (s.setPhase p).cursor = s.cursor := rfl
@[simp] theorem State.setPhase_remaining (s : State) (p : Phase) : (s.setPhase p).remaining = s.remaining := rfl
@[simp] theorem State.setPhase_pixWr (s : State) (p : Phase) : (s.setPhase p).pixWr = s.pixWr := rfl
@[simp] theorem State.setPhase_status (s : State) (p : Phase) : (s.setPhase p).status = s.status := rfl
@[simp] theorem State.setPhase_err (s : State) (p : Phase) : (s.setPhase p).err = s.err := rfl
@[simp] theorem State.setPhase_encWidth (s : State) (p : Phase) : (s.setPhase p).encWidth = s.encWidth := rfl
@[simp] theorem State.setPhase_encHeight (s : State) (p : Phase) : (s.setPhase p).encHeight = s.encHeight := rfl
@[simp] theorem State.setPhase_encChannels (s : State) (p : Phase) : (s.setPhase p).encChannels = s.encChannels := rfl
@[simp] theorem State.setPhase_encColorspace (s : State) (p : Phase) :
    (s.setPhase p).encColorspace = s.encColorspace := rfl
@[simp] theorem State.setPhase_encPixLen (s : State) (p : Phase) : (s.setPhase p).encPixLen = s.encPixLen := rfl
@[simp] theorem State.setPhase_encOutLen (s : State) (p : Phase) : (s.setPhase p).encOutLen = s.encOutLen := rfl
@[simp] theorem State.setPhase_decLen (s : State) (p : Phase) : (s.setPhase p).decLen = s.decLen := rfl
@[simp] theorem State.setPhase_decStrict (s : State) (p : Phase) : (s.setPhase p).decStrict = s.decStrict := rfl
@[simp] theorem State.setPhase_decWidth (s : State) (p : Phase) : (s.setPhase p).decWidth = s.decWidth := rfl
@[simp] theorem State.setPhase_decHeight (s : State) (p : Phase) : (s.setPhase p).decHeight = s.decHeight := rfl
@[simp] theorem State.setPhase_decChannels (s : State) (p : Phase) : (s.setPhase p).decChannels = s.decChannels := rfl
@[simp] theorem State.setPhase_decColorspace (s : State) (p : Phase) :
    (s.setPhase p).decColorspace = s.decColorspace := rfl
@[simp] theorem State.setPhase_decPixLen (s : State) (p : Phase) : (s.setPhase p).decPixLen = s.decPixLen := rfl
@[simp] theorem State.setPhase_pix (s : State) (p : Phase) : (s.setPhase p).pix = s.pix := rfl
@[simp] theorem State.setPhase_str (s : State) (p : Phase) : (s.setPhase p).str = s.str := rfl
@[simp] theorem State.setPhase_freeTick (s : State) (p : Phase) : (s.setPhase p).freeTick = s.freeTick := rfl

/-! ### `State.setRunOpen` -/

@[simp] theorem State.setRunOpen_cfg (s : State) (b : Bool) : (s.setRunOpen b).cfg = s.cfg := rfl
@[simp] theorem State.setRunOpen_prev (s : State) (b : Bool) : (s.setRunOpen b).prev = s.prev := rfl
@[simp] theorem State.setRunOpen_cur (s : State) (b : Bool) : (s.setRunOpen b).cur = s.cur := rfl
@[simp] theorem State.setRunOpen_idx (s : State) (b : Bool) : (s.setRunOpen b).idx = s.idx := rfl
@[simp] theorem State.setRunOpen_runOpen (s : State) (b : Bool) : (s.setRunOpen b).runOpen = b := rfl
@[simp] theorem State.setRunOpen_op (s : State) (b : Bool) : (s.setRunOpen b).op = s.op := rfl
@[simp] theorem State.setRunOpen_phase (s : State) (b : Bool) : (s.setRunOpen b).phase = s.phase := rfl
@[simp] theorem State.setRunOpen_pxPos (s : State) (b : Bool) : (s.setRunOpen b).pxPos = s.pxPos := rfl
@[simp] theorem State.setRunOpen_outLen (s : State) (b : Bool) : (s.setRunOpen b).outLen = s.outLen := rfl
@[simp] theorem State.setRunOpen_cursor (s : State) (b : Bool) : (s.setRunOpen b).cursor = s.cursor := rfl
@[simp] theorem State.setRunOpen_remaining (s : State) (b : Bool) : (s.setRunOpen b).remaining = s.remaining := rfl
@[simp] theorem State.setRunOpen_pixWr (s : State) (b : Bool) : (s.setRunOpen b).pixWr = s.pixWr := rfl
@[simp] theorem State.setRunOpen_status (s : State) (b : Bool) : (s.setRunOpen b).status = s.status := rfl
@[simp] theorem State.setRunOpen_err (s : State) (b : Bool) : (s.setRunOpen b).err = s.err := rfl
@[simp] theorem State.setRunOpen_encWidth (s : State) (b : Bool) : (s.setRunOpen b).encWidth = s.encWidth := rfl
@[simp] theorem State.setRunOpen_encHeight (s : State) (b : Bool) : (s.setRunOpen b).encHeight = s.encHeight := rfl
@[simp] theorem State.setRunOpen_encChannels (s : State) (b : Bool) :
    (s.setRunOpen b).encChannels = s.encChannels := rfl
@[simp] theorem State.setRunOpen_encColorspace (s : State) (b : Bool) :
    (s.setRunOpen b).encColorspace = s.encColorspace := rfl
@[simp] theorem State.setRunOpen_encPixLen (s : State) (b : Bool) : (s.setRunOpen b).encPixLen = s.encPixLen := rfl
@[simp] theorem State.setRunOpen_encOutLen (s : State) (b : Bool) : (s.setRunOpen b).encOutLen = s.encOutLen := rfl
@[simp] theorem State.setRunOpen_decLen (s : State) (b : Bool) : (s.setRunOpen b).decLen = s.decLen := rfl
@[simp] theorem State.setRunOpen_decStrict (s : State) (b : Bool) : (s.setRunOpen b).decStrict = s.decStrict := rfl
@[simp] theorem State.setRunOpen_decWidth (s : State) (b : Bool) : (s.setRunOpen b).decWidth = s.decWidth := rfl
@[simp] theorem State.setRunOpen_decHeight (s : State) (b : Bool) : (s.setRunOpen b).decHeight = s.decHeight := rfl
@[simp] theorem State.setRunOpen_decChannels (s : State) (b : Bool) :
    (s.setRunOpen b).decChannels = s.decChannels := rfl
@[simp] theorem State.setRunOpen_decColorspace (s : State) (b : Bool) :
    (s.setRunOpen b).decColorspace = s.decColorspace := rfl
@[simp] theorem State.setRunOpen_decPixLen (s : State) (b : Bool) : (s.setRunOpen b).decPixLen = s.decPixLen := rfl
@[simp] theorem State.setRunOpen_pix (s : State) (b : Bool) : (s.setRunOpen b).pix = s.pix := rfl
@[simp] theorem State.setRunOpen_str (s : State) (b : Bool) : (s.setRunOpen b).str = s.str := rfl
@[simp] theorem State.setRunOpen_freeTick (s : State) (b : Bool) : (s.setRunOpen b).freeTick = s.freeTick := rfl

/-! ### `State.raiseTail` -/

@[simp] theorem State.raiseTail_cfg (s : State) : (s.raiseTail).cfg = s.cfg := rfl
@[simp] theorem State.raiseTail_prev (s : State) : (s.raiseTail).prev = s.prev := rfl
@[simp] theorem State.raiseTail_cur (s : State) : (s.raiseTail).cur = s.cur := rfl
@[simp] theorem State.raiseTail_idx (s : State) : (s.raiseTail).idx = s.idx := rfl
@[simp] theorem State.raiseTail_runOpen (s : State) : (s.raiseTail).runOpen = s.runOpen := rfl
@[simp] theorem State.raiseTail_op (s : State) : (s.raiseTail).op = s.op := rfl
@[simp] theorem State.raiseTail_phase (s : State) : (s.raiseTail).phase = s.phase := rfl
@[simp] theorem State.raiseTail_pxPos (s : State) : (s.raiseTail).pxPos = s.pxPos := rfl
@[simp] theorem State.raiseTail_outLen (s : State) : (s.raiseTail).outLen = s.outLen := rfl
@[simp] theorem State.raiseTail_cursor (s : State) : (s.raiseTail).cursor = s.cursor := rfl
@[simp] theorem State.raiseTail_remaining (s : State) : (s.raiseTail).remaining = s.remaining := rfl
@[simp] theorem State.raiseTail_pixWr (s : State) : (s.raiseTail).pixWr = s.pixWr := rfl
@[simp] theorem State.raiseTail_status (s : State) : (s.raiseTail).status = s.status := rfl
@[simp] theorem State.raiseTail_err (s : State) : (s.raiseTail).err = s.err := rfl
@[simp] theorem State.raiseTail_encWidth (s : State) : (s.raiseTail).encWidth = s.encWidth := rfl
@[simp] theorem State.raiseTail_encHeight (s : State) : (s.raiseTail).encHeight = s.encHeight := rfl
@[simp] theorem State.raiseTail_encChannels (s : State) : (s.raiseTail).encChannels = s.encChannels := rfl
@[simp] theorem State.raiseTail_encColorspace (s : State) : (s.raiseTail).encColorspace = s.encColorspace := rfl
@[simp] theorem State.raiseTail_encPixLen (s : State) : (s.raiseTail).encPixLen = s.encPixLen := rfl
@[simp] theorem State.raiseTail_encOutLen (s : State) : (s.raiseTail).encOutLen = s.encOutLen := rfl
@[simp] theorem State.raiseTail_decLen (s : State) : (s.raiseTail).decLen = s.decLen := rfl
@[simp] theorem State.raiseTail_decStrict (s : State) : (s.raiseTail).decStrict = s.decStrict := rfl
@[simp] theorem State.raiseTail_decWidth (s : State) : (s.raiseTail).decWidth = s.decWidth := rfl
@[simp] theorem State.raiseTail_decHeight (s : State) : (s.raiseTail).decHeight = s.decHeight := rfl
@[simp] theorem State.raiseTail_decChannels (s : State) : (s.raiseTail).decChannels = s.decChannels := rfl
@[simp] theorem State.raiseTail_decColorspace (s : State) : (s.raiseTail).decColorspace = s.decColorspace := rfl
@[simp] theorem State.raiseTail_decPixLen (s : State) : (s.raiseTail).decPixLen = s.decPixLen := rfl
@[simp] theorem State.raiseTail_pix (s : State) : (s.raiseTail).pix = s.pix := rfl
@[simp] theorem State.raiseTail_str (s : State) : (s.raiseTail).str = s.str.write s.tailAddr (s.tailByte + 1) := rfl
@[simp] theorem State.raiseTail_freeTick (s : State) : (s.raiseTail).freeTick = s.freeTick := rfl

/-! ### `State.finishEncode` -/

@[simp] theorem State.finishEncode_cfg (s : State) : (s.finishEncode).cfg = s.cfg := rfl
@[simp] theorem State.finishEncode_prev (s : State) : (s.finishEncode).prev = s.prev := rfl
@[simp] theorem State.finishEncode_cur (s : State) : (s.finishEncode).cur = s.cur := rfl
@[simp] theorem State.finishEncode_idx (s : State) : (s.finishEncode).idx = s.idx := rfl
@[simp] theorem State.finishEncode_runOpen (s : State) : (s.finishEncode).runOpen = s.runOpen := rfl
@[simp] theorem State.finishEncode_op (s : State) : (s.finishEncode).op = s.op := rfl
@[simp] theorem State.finishEncode_phase (s : State) : (s.finishEncode).phase = s.phase := rfl
@[simp] theorem State.finishEncode_pxPos (s : State) : (s.finishEncode).pxPos = s.pxPos := rfl
@[simp] theorem State.finishEncode_outLen (s : State) : (s.finishEncode).outLen = s.outLen := rfl
@[simp] theorem State.finishEncode_cursor (s : State) : (s.finishEncode).cursor = s.cursor := rfl
@[simp] theorem State.finishEncode_remaining (s : State) : (s.finishEncode).remaining = s.remaining := rfl
@[simp] theorem State.finishEncode_pixWr (s : State) : (s.finishEncode).pixWr = s.pixWr := rfl
@[simp] theorem State.finishEncode_status (s : State) : (s.finishEncode).status = .done := rfl
@[simp] theorem State.finishEncode_err (s : State) : (s.finishEncode).err = s.err := rfl
@[simp] theorem State.finishEncode_encWidth (s : State) : (s.finishEncode).encWidth = s.encWidth := rfl
@[simp] theorem State.finishEncode_encHeight (s : State) : (s.finishEncode).encHeight = s.encHeight := rfl
@[simp] theorem State.finishEncode_encChannels (s : State) : (s.finishEncode).encChannels = s.encChannels := rfl
@[simp] theorem State.finishEncode_encColorspace (s : State) : (s.finishEncode).encColorspace = s.encColorspace := rfl
@[simp] theorem State.finishEncode_encPixLen (s : State) : (s.finishEncode).encPixLen = s.encPixLen := rfl
@[simp] theorem State.finishEncode_encOutLen (s : State) : (s.finishEncode).encOutLen = s.outLen := rfl
@[simp] theorem State.finishEncode_decLen (s : State) : (s.finishEncode).decLen = s.decLen := rfl
@[simp] theorem State.finishEncode_decStrict (s : State) : (s.finishEncode).decStrict = s.decStrict := rfl
@[simp] theorem State.finishEncode_decWidth (s : State) : (s.finishEncode).decWidth = s.decWidth := rfl
@[simp] theorem State.finishEncode_decHeight (s : State) : (s.finishEncode).decHeight = s.decHeight := rfl
@[simp] theorem State.finishEncode_decChannels (s : State) : (s.finishEncode).decChannels = s.decChannels := rfl
@[simp] theorem State.finishEncode_decColorspace (s : State) : (s.finishEncode).decColorspace = s.decColorspace := rfl
@[simp] theorem State.finishEncode_decPixLen (s : State) : (s.finishEncode).decPixLen = s.decPixLen := rfl
@[simp] theorem State.finishEncode_pix (s : State) : (s.finishEncode).pix = s.pix := rfl
@[simp] theorem State.finishEncode_str (s : State) : (s.finishEncode).str = s.str := rfl
@[simp] theorem State.finishEncode_freeTick (s : State) : (s.finishEncode).freeTick = s.freeTick := rfl

/-! ### `State.finishDecode` -/

@[simp] theorem State.finishDecode_cfg (s : State) : (s.finishDecode).cfg = s.cfg := rfl
@[simp] theorem State.finishDecode_prev (s : State) : (s.finishDecode).prev = s.prev := rfl
@[simp] theorem State.finishDecode_cur (s : State) : (s.finishDecode).cur = s.cur := rfl
@[simp] theorem State.finishDecode_idx (s : State) : (s.finishDecode).idx = s.idx := rfl
@[simp] theorem State.finishDecode_runOpen (s : State) : (s.finishDecode).runOpen = s.runOpen := rfl
@[simp] theorem State.finishDecode_op (s : State) : (s.finishDecode).op = s.op := rfl
@[simp] theorem State.finishDecode_phase (s : State) : (s.finishDecode).phase = s.phase := rfl
@[simp] theorem State.finishDecode_pxPos (s : State) : (s.finishDecode).pxPos = s.pxPos := rfl
@[simp] theorem State.finishDecode_outLen (s : State) : (s.finishDecode).outLen = s.outLen := rfl
@[simp] theorem State.finishDecode_cursor (s : State) : (s.finishDecode).cursor = s.cursor := rfl
@[simp] theorem State.finishDecode_remaining (s : State) : (s.finishDecode).remaining = s.remaining := rfl
@[simp] theorem State.finishDecode_pixWr (s : State) : (s.finishDecode).pixWr = s.pixWr := rfl
@[simp] theorem State.finishDecode_status (s : State) : (s.finishDecode).status = .done := rfl
@[simp] theorem State.finishDecode_err (s : State) : (s.finishDecode).err = s.err := rfl
@[simp] theorem State.finishDecode_encWidth (s : State) : (s.finishDecode).encWidth = s.encWidth := rfl
@[simp] theorem State.finishDecode_encHeight (s : State) : (s.finishDecode).encHeight = s.encHeight := rfl
@[simp] theorem State.finishDecode_encChannels (s : State) : (s.finishDecode).encChannels = s.encChannels := rfl
@[simp] theorem State.finishDecode_encColorspace (s : State) : (s.finishDecode).encColorspace = s.encColorspace := rfl
@[simp] theorem State.finishDecode_encPixLen (s : State) : (s.finishDecode).encPixLen = s.encPixLen := rfl
@[simp] theorem State.finishDecode_encOutLen (s : State) : (s.finishDecode).encOutLen = s.encOutLen := rfl
@[simp] theorem State.finishDecode_decLen (s : State) : (s.finishDecode).decLen = s.decLen := rfl
@[simp] theorem State.finishDecode_decStrict (s : State) : (s.finishDecode).decStrict = s.decStrict := rfl
@[simp] theorem State.finishDecode_decWidth (s : State) : (s.finishDecode).decWidth = s.decWidth := rfl
@[simp] theorem State.finishDecode_decHeight (s : State) : (s.finishDecode).decHeight = s.decHeight := rfl
@[simp] theorem State.finishDecode_decChannels (s : State) : (s.finishDecode).decChannels = s.decChannels := rfl
@[simp] theorem State.finishDecode_decColorspace (s : State) : (s.finishDecode).decColorspace = s.decColorspace := rfl
@[simp] theorem State.finishDecode_decPixLen (s : State) : (s.finishDecode).decPixLen = s.pixWr := rfl
@[simp] theorem State.finishDecode_pix (s : State) : (s.finishDecode).pix = s.pix := rfl
@[simp] theorem State.finishDecode_str (s : State) : (s.finishDecode).str = s.str := rfl
@[simp] theorem State.finishDecode_freeTick (s : State) : (s.finishDecode).freeTick = s.freeTick := rfl

/-! ### `State.started` -/

@[simp] theorem State.started_cfg (s : State) (e : Engine) : (s.started e).cfg = s.cfg := rfl
@[simp] theorem State.started_prev (s : State) (e : Engine) : (s.started e).prev = s.prev := rfl
@[simp] theorem State.started_cur (s : State) (e : Engine) : (s.started e).cur = s.cur := rfl
@[simp] theorem State.started_idx (s : State) (e : Engine) : (s.started e).idx = s.idx := rfl
@[simp] theorem State.started_runOpen (s : State) (e : Engine) : (s.started e).runOpen = s.runOpen := rfl
@[simp] theorem State.started_op (s : State) (e : Engine) : (s.started e).op = e := rfl
@[simp] theorem State.started_phase (s : State) (e : Engine) : (s.started e).phase = .start := rfl
@[simp] theorem State.started_pxPos (s : State) (e : Engine) : (s.started e).pxPos = s.pxPos := rfl
@[simp] theorem State.started_outLen (s : State) (e : Engine) : (s.started e).outLen = s.outLen := rfl
@[simp] theorem State.started_cursor (s : State) (e : Engine) : (s.started e).cursor = s.cursor := rfl
@[simp] theorem State.started_remaining (s : State) (e : Engine) : (s.started e).remaining = s.remaining := rfl
@[simp] theorem State.started_pixWr (s : State) (e : Engine) : (s.started e).pixWr = s.pixWr := rfl
@[simp] theorem State.started_status (s : State) (e : Engine) : (s.started e).status = .busy := rfl
@[simp] theorem State.started_err (s : State) (e : Engine) : (s.started e).err = 0 := rfl
@[simp] theorem State.started_encWidth (s : State) (e : Engine) : (s.started e).encWidth = s.encWidth := rfl
@[simp] theorem State.started_encHeight (s : State) (e : Engine) : (s.started e).encHeight = s.encHeight := rfl
@[simp] theorem State.started_encChannels (s : State) (e : Engine) : (s.started e).encChannels = s.encChannels := rfl
@[simp] theorem State.started_encColorspace (s : State) (e : Engine) :
    (s.started e).encColorspace = s.encColorspace := rfl
@[simp] theorem State.started_encPixLen (s : State) (e : Engine) : (s.started e).encPixLen = s.encPixLen := rfl
@[simp] theorem State.started_encOutLen (s : State) (e : Engine) : (s.started e).encOutLen = s.encOutLen := rfl
@[simp] theorem State.started_decLen (s : State) (e : Engine) : (s.started e).decLen = s.decLen := rfl
@[simp] theorem State.started_decStrict (s : State) (e : Engine) : (s.started e).decStrict = s.decStrict := rfl
@[simp] theorem State.started_decWidth (s : State) (e : Engine) : (s.started e).decWidth = s.decWidth := rfl
@[simp] theorem State.started_decHeight (s : State) (e : Engine) : (s.started e).decHeight = s.decHeight := rfl
@[simp] theorem State.started_decChannels (s : State) (e : Engine) : (s.started e).decChannels = s.decChannels := rfl
@[simp] theorem State.started_decColorspace (s : State) (e : Engine) :
    (s.started e).decColorspace = s.decColorspace := rfl
@[simp] theorem State.started_decPixLen (s : State) (e : Engine) : (s.started e).decPixLen = s.decPixLen := rfl
@[simp] theorem State.started_pix (s : State) (e : Engine) : (s.started e).pix = s.pix := rfl
@[simp] theorem State.started_str (s : State) (e : Engine) : (s.started e).str = s.str := rfl
@[simp] theorem State.started_freeTick (s : State) (e : Engine) : (s.started e).freeTick = s.freeTick := rfl

/-! ### `State.fetchPixel` -/

@[simp] theorem State.fetchPixel_cfg (s : State) : (s.fetchPixel).cfg = s.cfg := rfl
@[simp] theorem State.fetchPixel_prev (s : State) : (s.fetchPixel).prev = s.prev := rfl
@[simp] theorem State.fetchPixel_cur (s : State) : (s.fetchPixel).cur = loadPixel s.pix s.pxPos s.encChannels := rfl
@[simp] theorem State.fetchPixel_idx (s : State) : (s.fetchPixel).idx = s.idx := rfl
@[simp] theorem State.fetchPixel_runOpen (s : State) : (s.fetchPixel).runOpen = s.runOpen := rfl
@[simp] theorem State.fetchPixel_op (s : State) : (s.fetchPixel).op = s.op := rfl
@[simp] theorem State.fetchPixel_phase (s : State) : (s.fetchPixel).phase = s.phase := rfl
@[simp] theorem State.fetchPixel_pxPos (s : State) : (s.fetchPixel).pxPos = s.pxPos := rfl
@[simp] theorem State.fetchPixel_outLen (s : State) : (s.fetchPixel).outLen = s.outLen := rfl
@[simp] theorem State.fetchPixel_cursor (s : State) : (s.fetchPixel).cursor = s.cursor := rfl
@[simp] theorem State.fetchPixel_remaining (s : State) : (s.fetchPixel).remaining = s.remaining := rfl
@[simp] theorem State.fetchPixel_pixWr (s : State) : (s.fetchPixel).pixWr = s.pixWr := rfl
@[simp] theorem State.fetchPixel_status (s : State) : (s.fetchPixel).status = s.status := rfl
@[simp] theorem State.fetchPixel_err (s : State) : (s.fetchPixel).err = s.err := rfl
@[simp] theorem State.fetchPixel_encWidth (s : State) : (s.fetchPixel).encWidth = s.encWidth := rfl
@[simp] theorem State.fetchPixel_encHeight (s : State) : (s.fetchPixel).encHeight = s.encHeight := rfl
@[simp] theorem State.fetchPixel_encChannels (s : State) : (s.fetchPixel).encChannels = s.encChannels := rfl
@[simp] theorem State.fetchPixel_encColorspace (s : State) : (s.fetchPixel).encColorspace = s.encColorspace := rfl
@[simp] theorem State.fetchPixel_encPixLen (s : State) : (s.fetchPixel).encPixLen = s.encPixLen := rfl
@[simp] theorem State.fetchPixel_encOutLen (s : State) : (s.fetchPixel).encOutLen = s.encOutLen := rfl
@[simp] theorem State.fetchPixel_decLen (s : State) : (s.fetchPixel).decLen = s.decLen := rfl
@[simp] theorem State.fetchPixel_decStrict (s : State) : (s.fetchPixel).decStrict = s.decStrict := rfl
@[simp] theorem State.fetchPixel_decWidth (s : State) : (s.fetchPixel).decWidth = s.decWidth := rfl
@[simp] theorem State.fetchPixel_decHeight (s : State) : (s.fetchPixel).decHeight = s.decHeight := rfl
@[simp] theorem State.fetchPixel_decChannels (s : State) : (s.fetchPixel).decChannels = s.decChannels := rfl
@[simp] theorem State.fetchPixel_decColorspace (s : State) : (s.fetchPixel).decColorspace = s.decColorspace := rfl
@[simp] theorem State.fetchPixel_decPixLen (s : State) : (s.fetchPixel).decPixLen = s.decPixLen := rfl
@[simp] theorem State.fetchPixel_pix (s : State) : (s.fetchPixel).pix = s.pix := rfl
@[simp] theorem State.fetchPixel_str (s : State) : (s.fetchPixel).str = s.str := rfl
@[simp] theorem State.fetchPixel_freeTick (s : State) : (s.fetchPixel).freeTick = s.freeTick := rfl

/-! ### `State.finishPixel` -/

@[simp] theorem State.finishPixel_cfg (s : State) : (s.finishPixel).cfg = s.cfg := rfl
@[simp] theorem State.finishPixel_prev (s : State) : (s.finishPixel).prev = s.cur := rfl
@[simp] theorem State.finishPixel_cur (s : State) : (s.finishPixel).cur = s.cur := rfl
@[simp] theorem State.finishPixel_idx (s : State) :
    (s.finishPixel).idx = s.idx.set (pixelHash s.cur).toNat s.cur (pixelHash s.cur).isLt := rfl
@[simp] theorem State.finishPixel_runOpen (s : State) : (s.finishPixel).runOpen = s.runOpen := rfl
@[simp] theorem State.finishPixel_op (s : State) : (s.finishPixel).op = s.op := rfl
@[simp] theorem State.finishPixel_phase (s : State) : (s.finishPixel).phase = s.encPhase (s.pxPos + 1) := rfl
@[simp] theorem State.finishPixel_pxPos (s : State) : (s.finishPixel).pxPos = s.pxPos + 1 := rfl
@[simp] theorem State.finishPixel_outLen (s : State) : (s.finishPixel).outLen = s.outLen := rfl
@[simp] theorem State.finishPixel_cursor (s : State) : (s.finishPixel).cursor = s.cursor := rfl
@[simp] theorem State.finishPixel_remaining (s : State) : (s.finishPixel).remaining = s.remaining := rfl
@[simp] theorem State.finishPixel_pixWr (s : State) : (s.finishPixel).pixWr = s.pixWr := rfl
@[simp] theorem State.finishPixel_status (s : State) : (s.finishPixel).status = s.status := rfl
@[simp] theorem State.finishPixel_err (s : State) : (s.finishPixel).err = s.err := rfl
@[simp] theorem State.finishPixel_encWidth (s : State) : (s.finishPixel).encWidth = s.encWidth := rfl
@[simp] theorem State.finishPixel_encHeight (s : State) : (s.finishPixel).encHeight = s.encHeight := rfl
@[simp] theorem State.finishPixel_encChannels (s : State) : (s.finishPixel).encChannels = s.encChannels := rfl
@[simp] theorem State.finishPixel_encColorspace (s : State) : (s.finishPixel).encColorspace = s.encColorspace := rfl
@[simp] theorem State.finishPixel_encPixLen (s : State) : (s.finishPixel).encPixLen = s.encPixLen := rfl
@[simp] theorem State.finishPixel_encOutLen (s : State) : (s.finishPixel).encOutLen = s.encOutLen := rfl
@[simp] theorem State.finishPixel_decLen (s : State) : (s.finishPixel).decLen = s.decLen := rfl
@[simp] theorem State.finishPixel_decStrict (s : State) : (s.finishPixel).decStrict = s.decStrict := rfl
@[simp] theorem State.finishPixel_decWidth (s : State) : (s.finishPixel).decWidth = s.decWidth := rfl
@[simp] theorem State.finishPixel_decHeight (s : State) : (s.finishPixel).decHeight = s.decHeight := rfl
@[simp] theorem State.finishPixel_decChannels (s : State) : (s.finishPixel).decChannels = s.decChannels := rfl
@[simp] theorem State.finishPixel_decColorspace (s : State) : (s.finishPixel).decColorspace = s.decColorspace := rfl
@[simp] theorem State.finishPixel_decPixLen (s : State) : (s.finishPixel).decPixLen = s.decPixLen := rfl
@[simp] theorem State.finishPixel_pix (s : State) : (s.finishPixel).pix = s.pix := rfl
@[simp] theorem State.finishPixel_str (s : State) : (s.finishPixel).str = s.str := rfl
@[simp] theorem State.finishPixel_freeTick (s : State) : (s.finishPixel).freeTick = s.freeTick := rfl

/-! ### `State.decParse` -/

@[simp] theorem State.decParse_cfg (s : State) : (s.decParse).cfg = s.cfg := rfl
@[simp] theorem State.decParse_prev (s : State) : (s.decParse).prev = s.prev := rfl
@[simp] theorem State.decParse_cur (s : State) : (s.decParse).cur = s.cur := rfl
@[simp] theorem State.decParse_idx (s : State) : (s.decParse).idx = s.idx := rfl
@[simp] theorem State.decParse_runOpen (s : State) : (s.decParse).runOpen = s.runOpen := rfl
@[simp] theorem State.decParse_op (s : State) : (s.decParse).op = s.op := rfl
@[simp] theorem State.decParse_phase (s : State) : (s.decParse).phase = s.phase := rfl
@[simp] theorem State.decParse_pxPos (s : State) : (s.decParse).pxPos = s.pxPos := rfl
@[simp] theorem State.decParse_outLen (s : State) : (s.decParse).outLen = s.outLen := rfl
@[simp] theorem State.decParse_cursor (s : State) : (s.decParse).cursor = s.cursor := rfl
@[simp] theorem State.decParse_remaining (s : State) : (s.decParse).remaining = s.remaining := rfl
@[simp] theorem State.decParse_pixWr (s : State) : (s.decParse).pixWr = s.pixWr := rfl
@[simp] theorem State.decParse_status (s : State) : (s.decParse).status = s.status := rfl
@[simp] theorem State.decParse_err (s : State) : (s.decParse).err = s.err := rfl
@[simp] theorem State.decParse_encWidth (s : State) : (s.decParse).encWidth = s.encWidth := rfl
@[simp] theorem State.decParse_encHeight (s : State) : (s.decParse).encHeight = s.encHeight := rfl
@[simp] theorem State.decParse_encChannels (s : State) : (s.decParse).encChannels = s.encChannels := rfl
@[simp] theorem State.decParse_encColorspace (s : State) : (s.decParse).encColorspace = s.encColorspace := rfl
@[simp] theorem State.decParse_encPixLen (s : State) : (s.decParse).encPixLen = s.encPixLen := rfl
@[simp] theorem State.decParse_encOutLen (s : State) : (s.decParse).encOutLen = s.encOutLen := rfl
@[simp] theorem State.decParse_decLen (s : State) : (s.decParse).decLen = s.decLen := rfl
@[simp] theorem State.decParse_decStrict (s : State) : (s.decParse).decStrict = s.decStrict := rfl
@[simp] theorem State.decParse_decWidth (s : State) :
    (s.decParse).decWidth = be32Value (s.str.read 4) (s.str.read 5) (s.str.read 6) (s.str.read 7) := rfl
@[simp] theorem State.decParse_decHeight (s : State) :
    (s.decParse).decHeight = be32Value (s.str.read 8) (s.str.read 9) (s.str.read 10) (s.str.read 11) := rfl
@[simp] theorem State.decParse_decChannels (s : State) : (s.decParse).decChannels = s.str.read 12 := rfl
@[simp] theorem State.decParse_decColorspace (s : State) : (s.decParse).decColorspace = s.str.read 13 := rfl
@[simp] theorem State.decParse_decPixLen (s : State) : (s.decParse).decPixLen = s.decPixLen := rfl
@[simp] theorem State.decParse_pix (s : State) : (s.decParse).pix = s.pix := rfl
@[simp] theorem State.decParse_str (s : State) : (s.decParse).str = s.str := rfl
@[simp] theorem State.decParse_freeTick (s : State) : (s.decParse).freeTick = s.freeTick := rfl

/-! ### `State.decInit` -/

@[simp] theorem State.decInit_cfg (s : State) : (s.decInit).cfg = s.cfg := rfl
@[simp] theorem State.decInit_prev (s : State) : (s.decInit).prev = initialPrev := rfl
@[simp] theorem State.decInit_cur (s : State) : (s.decInit).cur = s.cur := rfl
@[simp] theorem State.decInit_idx (s : State) : (s.decInit).idx = clearedIdx := rfl
@[simp] theorem State.decInit_runOpen (s : State) : (s.decInit).runOpen = s.runOpen := rfl
@[simp] theorem State.decInit_op (s : State) : (s.decInit).op = s.op := rfl
@[simp] theorem State.decInit_phase (s : State) : (s.decInit).phase = chunkPhase s.decPixels := rfl
@[simp] theorem State.decInit_pxPos (s : State) : (s.decInit).pxPos = s.pxPos := rfl
@[simp] theorem State.decInit_outLen (s : State) : (s.decInit).outLen = s.outLen := rfl
@[simp] theorem State.decInit_cursor (s : State) : (s.decInit).cursor = 14 := rfl
@[simp] theorem State.decInit_remaining (s : State) : (s.decInit).remaining = s.decPixels := rfl
@[simp] theorem State.decInit_pixWr (s : State) : (s.decInit).pixWr = 0 := rfl
@[simp] theorem State.decInit_status (s : State) : (s.decInit).status = s.status := rfl
@[simp] theorem State.decInit_err (s : State) : (s.decInit).err = s.err := rfl
@[simp] theorem State.decInit_encWidth (s : State) : (s.decInit).encWidth = s.encWidth := rfl
@[simp] theorem State.decInit_encHeight (s : State) : (s.decInit).encHeight = s.encHeight := rfl
@[simp] theorem State.decInit_encChannels (s : State) : (s.decInit).encChannels = s.encChannels := rfl
@[simp] theorem State.decInit_encColorspace (s : State) : (s.decInit).encColorspace = s.encColorspace := rfl
@[simp] theorem State.decInit_encPixLen (s : State) : (s.decInit).encPixLen = s.encPixLen := rfl
@[simp] theorem State.decInit_encOutLen (s : State) : (s.decInit).encOutLen = s.encOutLen := rfl
@[simp] theorem State.decInit_decLen (s : State) : (s.decInit).decLen = s.decLen := rfl
@[simp] theorem State.decInit_decStrict (s : State) : (s.decInit).decStrict = s.decStrict := rfl
@[simp] theorem State.decInit_decWidth (s : State) : (s.decInit).decWidth = s.decWidth := rfl
@[simp] theorem State.decInit_decHeight (s : State) : (s.decInit).decHeight = s.decHeight := rfl
@[simp] theorem State.decInit_decChannels (s : State) : (s.decInit).decChannels = s.decChannels := rfl
@[simp] theorem State.decInit_decColorspace (s : State) : (s.decInit).decColorspace = s.decColorspace := rfl
@[simp] theorem State.decInit_decPixLen (s : State) : (s.decInit).decPixLen = 0 := rfl
@[simp] theorem State.decInit_pix (s : State) : (s.decInit).pix = s.pix := rfl
@[simp] theorem State.decInit_str (s : State) : (s.decInit).str = s.str := rfl
@[simp] theorem State.decInit_freeTick (s : State) : (s.decInit).freeTick = s.freeTick := rfl

end Sys2Proof.Machine
end

