-- ==== Sys2Proof/Laws/Ops.lean ====
section
/-! SUPPORT. For each shared operation, what it can do: cited instead of unfolding it. -/

namespace Sys2Proof.Machine

/-! ### The index RAM -/

/-- A read of IDX after an update (R117). -/
theorem idxRead_update (s : State) (p : Word) (i : BitVec 6) :
    (s.update p).idxRead i = if i = pixelHash p then p else s.idxRead i := by
  simp only [State.idxRead, State.update_idx, Vector.getElem_set]
  by_cases h : i = pixelHash p
  · simp [h]
  · have : ¬ (pixelHash p).toNat = i.toNat := fun e => h (BitVec.eq_of_toNat_eq e.symm)
    simp [h, this]

@[simp] theorem clearedIdx_getElem (i : Nat) (h : i < 64) : clearedIdx[i] = 0 := by
  simp [clearedIdx]

/-- The cleared index RAM reads as zero words (R42). -/
theorem idxRead_of_cleared {s : State} (h : s.idx = clearedIdx) (i : BitVec 6) : s.idxRead i = 0 := by
  simp only [State.idxRead, h]
  exact clearedIdx_getElem i.toNat i.isLt

/-- Whatever state has the index RAM and `prev` of an update shows it in full. -/
theorem updatedWith_of_update {s t : State} {p : Word} (hp : t.prev = p) (hi : t.idx = (s.update p).idx) :
    UpdatedWith s t p := by
  have key (i : BitVec 6) : t.idxRead i = (s.update p).idxRead i := by simp only [State.idxRead, hi]
  refine ⟨hp, ?_, fun i h => ?_⟩
  · rw [key, idxRead_update, if_pos rfl]
  · rw [key, idxRead_update, if_neg h]

/-! ### Actions, errors and appends -/

@[simp] theorem Action.settle_ok (s t : State) : (Action.ok t).settle s = t := rfl
@[simp] theorem Action.settle_raised (k : ErrorKind) (n : Nat) (s : State) :
    (Action.raised k n).settle s = s.raiseError k n := rfl
@[simp] theorem Action.andThen_ok (s : State) (f : State → Action) : (Action.ok s).andThen f = f s := rfl
@[simp] theorem Action.andThen_raised (k : ErrorKind) (n : Nat) (f : State → Action) :
    (Action.raised k n).andThen f = .raised k n := rfl

/-- An append either takes the bytes or raises `OutOfCapacity` with nothing done (R133). -/
theorem State.append_cases (s : State) (bs : List Byte) :
    (fits s.cfg.outCap (s.outLen + bs.length) = true ∧ s.append bs = .ok (s.appended bs))
    ∨ (fits s.cfg.outCap (s.outLen + bs.length) = false ∧ s.append bs = .raised .outOfCapacity s.outLen) := by
  unfold State.append
  cases h : fits s.cfg.outCap (s.outLen + bs.length)
  · exact .inr ⟨rfl, by simp⟩
  · exact .inl ⟨rfl, by simp⟩

theorem State.append_of_fits {s : State} {bs : List Byte}
    (h : fits s.cfg.outCap (s.outLen + bs.length) = true) : s.append bs = .ok (s.appended bs) := by
  unfold State.append; rw [if_pos h]

theorem State.append_of_full {s : State} {bs : List Byte}
    (h : fits s.cfg.outCap (s.outLen + bs.length) = false) :
    s.append bs = .raised .outOfCapacity s.outLen := by
  unfold State.append; rw [if_neg (by simp [h])]

/-- A capacity that holds `n` bytes holds fewer. -/
theorem fits_of_le {cap : Option Nat} {m n : Nat} (h : fits cap n = true) (hle : m ≤ n) : fits cap m = true := by
  cases cap with
  | none => rfl
  | some c =>
    have : n ≤ c := by simpa [fits] using h
    simpa [fits] using hle.trans this

/-- Appended bytes are read back and nothing else of STR moves. -/
theorem appended_effect {s : State} (bs : List Byte) (h : s.str.wf = true) : Appended s (s.appended bs) bs :=
  ⟨rfl, Memory.readBytes_writeBytes _ _ h, fun _ ha => Memory.read_writeBytes_outside _ _ ha⟩

/-- An error writes no parameter register (R222). -/
theorem raiseError_parameters (s : State) (k : ErrorKind) (n : Nat) : SameParameters s (s.raiseError k n) :=
  ⟨rfl, rfl, rfl, rfl, rfl, rfl, rfl, rfl⟩

/-- The codes are distinct and never 0 (R210). -/
theorem ErrorKind.code_injective {j k : ErrorKind} (h : j.code = k.code) : j = k := by
  revert h; cases j <;> cases k <;> decide

theorem ErrorKind.code_ne_zero (k : ErrorKind) : k.code ≠ 0 := by cases k <;> decide

/-! ### Chunks -/

theorem State.whenChunkDue_of_due {s : State} (h : s.chunkDue) (r : Host.Outcome State Fault Refusal) :
    s.whenChunkDue r = r := if_pos h

theorem State.whenChunkDue_of_not {s : State} (h : ¬ s.chunkDue) (r : Host.Outcome State Fault Refusal) :
    s.whenChunkDue r = .fault .chunkNotDue := if_neg h

theorem State.whenFits_of_fits {s : State} {length : Nat} (h : s.cursor + length ≤ s.decLen)
    (r : Host.Outcome State Fault Refusal) : s.whenFits length r = r := if_neg (by omega)

theorem State.whenFits_of_short {s : State} {length : Nat} (h : s.decLen < s.cursor + length)
    (r : Host.Outcome State Fault Refusal) : s.whenFits length r = .next (s.chunkError .unexpectedEof) := if_pos h

/-- The whole effect of a chunk that passed its checks (R183). -/
theorem emitChunk_effect {s : State} (h : s.chunkDue) (hw : s.pix.wf = true) {length count : Nat} (p : Word)
    (hc : count ≤ s.remaining) : ChunkEffect s (s.emitChunk length count p) length count p := by
  obtain ⟨-, -, -, -, hch⟩ := h
  refine
    { cur := rfl, updated := updatedWith_of_update rfl rfl, cursor := rfl, remaining := ?_, phase := rfl, pixWr := rfl
      stored := fun k hk => readBytes_storePixels p hch hw hk
      otherBytes := fun a ha => read_storePixels_outside _ p hch ha
      str := fun _ => rfl, status := rfl, err := rfl, op := rfl
      parameters := ⟨rfl, rfl, rfl, rfl, rfl, rfl, rfl, rfl⟩, results := ⟨rfl, rfl, rfl, rfl, rfl⟩
      encOutLen := rfl, runOpen := rfl, pxPos := rfl, outLen := rfl, freeTick := rfl }
  exact Nat.sub_add_cancel hc

/-- Everything a chunk can do when one is due: raise one of three errors, or take effect with at least one pixel and
no more than are owed. -/
theorem exec_cases (i : Instr) {s : State} (h : s.chunkDue) :
    (∃ k ∈ [ErrorKind.unexpectedEof, .illegalRun, .pixelCountMismatch], exec i s = .next (s.chunkError k))
    ∨ ∃ length count p, 1 ≤ length ∧ 1 ≤ count ∧ count ≤ s.remaining
        ∧ exec i s = .next (s.emitChunk length count p) := by
  have h1 : 1 ≤ s.remaining := h.2.2.2.1
  have fit (length : Nat) (p : Word) (hl : 1 ≤ length) :
      (∃ k ∈ [ErrorKind.unexpectedEof, .illegalRun, .pixelCountMismatch],
        s.whenChunkDue (s.whenFits length (.next (s.emitChunk length 1 p))) = .next (s.chunkError k))
      ∨ ∃ length' count p', 1 ≤ length' ∧ 1 ≤ count ∧ count ≤ s.remaining
        ∧ s.whenChunkDue (s.whenFits length (.next (s.emitChunk length 1 p))) = .next (s.emitChunk length' count p') := by
    rw [State.whenChunkDue_of_due h]
    by_cases hf : s.cursor + length ≤ s.decLen
    · exact .inr ⟨length, 1, p, hl, le_refl 1, h1, State.whenFits_of_fits hf _⟩
    · exact .inl ⟨.unexpectedEof, by simp, State.whenFits_of_short (by omega) _⟩
  cases i with
  | rgb r g b => exact fit 4 _ (by omega)
  | rgba r g b a => exact fit 5 _ (by omega)
  | index idx => exact .inr ⟨1, 1, _, le_refl 1, le_refl 1, h1, State.whenChunkDue_of_due h _⟩
  | diff fr fg fb => exact .inr ⟨1, 1, _, le_refl 1, le_refl 1, h1, State.whenChunkDue_of_due h _⟩
  | luma fg frg fbg => exact fit 2 _ (by omega)
  | run fr =>
    simp only [exec, execRun, State.whenChunkDue_of_due h]
    split_ifs with hp hc
    · exact .inl ⟨.illegalRun, by simp, rfl⟩
    · exact .inl ⟨.pixelCountMismatch, by simp, rfl⟩
    · exact .inr ⟨1, runCount fr, _, le_refl 1, Nat.le_add_left 1 _, by omega, rfl⟩

/-- A chunk step that is not due stops, whatever the chunk (log 8). -/
theorem exec_of_not_due (i : Instr) {s : State} (h : ¬ s.chunkDue) : exec i s = .fault .chunkNotDue := by
  cases i <;> exact State.whenChunkDue_of_not h _

/-! ### The step, by the running engine and its phase -/

theorem step_of_halted {s : State} (h : s.status ≠ .busy) : step s = .next s := by
  unfold step; cases hs : s.status <;> simp_all

theorem step_encStart {s : State} (hs : s.status = .busy) (ho : s.op = .enc) (hp : s.phase = .start) :
    step s = .next (encStart s) := by
  unfold step; rw [hs, ho, hp]

theorem step_encBody {s : State} (hs : s.status = .busy) (ho : s.op = .enc) (hp : s.phase = .body) :
    step s = encBody s := by
  unfold step; rw [hs, ho, hp]

theorem step_encEnd {s : State} (hs : s.status = .busy) (ho : s.op = .enc) (hp : s.phase = .fin) :
    step s = .next (encEnd s) := by
  unfold step; rw [hs, ho, hp]

theorem step_decStart {s : State} (hs : s.status = .busy) (ho : s.op = .dec) (hp : s.phase = .start) :
    step s = .next (decStart s) := by
  unfold step; rw [hs, ho, hp]

theorem step_decBody {s : State} (hs : s.status = .busy) (ho : s.op = .dec) (hp : s.phase = .body) :
    step s = decBody s := by
  unfold step; rw [hs, ho, hp]

theorem step_decEnd {s : State} (hs : s.status = .busy) (ho : s.op = .dec) (hp : s.phase = .fin) :
    step s = .next (decEnd s) := by
  unfold step; rw [hs, ho, hp]

theorem step_encBody_of_due {s : State} (h : s.pixelDue) : step s = .next (encPixel s) := by
  rw [step_encBody h.1 h.2.1 h.2.2.1]; exact if_pos h

end Sys2Proof.Machine
end

