-- ==== Sys2Proof/Laws/Decoder.lean ====
section
/-! SUPPORT. What the decoder's steps can do, and the laws of a run of steps: cited instead of unfolding them. -/

namespace Sys2Proof.Machine

/-! ### Words from bytes -/

/-- The value of a concatenation. -/
theorem append_toNat {m n : Nat} (x : BitVec m) (y : BitVec n) : (x ++ y).toNat = x.toNat * 2 ^ n + y.toNat := by
  rw [BitVec.toNat_append, ← Nat.shiftLeft_add_eq_or_of_lt y.isLt, Nat.shiftLeft_eq]

/-- A word is the value of its four bytes. -/
theorem be32Value_bytes (w : Word) :
    be32Value (w.extractLsb' 24 8) (w.extractLsb' 16 8) (w.extractLsb' 8 8) (w.extractLsb' 0 8) = w := by
  apply BitVec.eq_of_toNat_eq
  have := w.isLt
  simp only [be32Value, append_toNat, BitVec.extractLsb'_toNat, Nat.shiftRight_eq_div_pow]
  omega

/-- A chunk has one to five bytes (R97). -/
theorem encode_length (i : Instr) : 1 ≤ (encode i).length ∧ (encode i).length ≤ maxChunkLength := by
  cases i <;> simp [encode, maxChunkLength]

/-! ### The start and end steps -/

theorem decStart_of_error {s : State} {k : ErrorKind} (h : s.decHeaderError = some k) :
    decStart s = s.raiseError k 0 := by rw [decStart, h]

theorem decStart_of_ok {s : State} (h : s.decHeaderError = none) : decStart s = s.decParse.decInit := by
  rw [decStart, h]

/-- What passing the checks means (R171 to R175). -/
theorem of_decHeaderError_none {s : State} (h : s.decHeaderError = none) :
    22 ≤ s.decLen ∧ s.str.readBytes 0 4 = magic ∧ (s.str.read 13).toNat ≤ 1
    ∧ (s.str.read 12 = 3 ∨ s.str.read 12 = 4) ∧ fits s.cfg.pixCap s.decParse.decBytes = true := by
  unfold State.decHeaderError at h
  split_ifs at h with h1 h2 h3 h4 h5
  exact ⟨by omega, not_not.1 h2, by omega, by tauto, h5⟩

/-- The header's two dimensions as parsed (R175). -/
theorem decParse_dims {s : State} {w h : Word} (hb : s.str.readBytes 4 8 = be32Bytes w ++ be32Bytes h) :
    s.decParse.decWidth = w ∧ s.decParse.decHeight = h := by
  simp only [Memory.readBytes, be32Bytes, List.cons_append, List.nil_append, List.cons.injEq, and_true] at hb
  obtain ⟨e0, e1, e2, e3, e4, e5, e6, e7⟩ := hb
  constructor
  · show be32Value _ _ _ _ = _; rw [e0, e1, e2, e3, be32Value_bytes]
  · show be32Value _ _ _ _ = _; rw [e4, e5, e6, e7, be32Value_bytes]

/-- The strict check in words (R184). -/
theorem strictEndOk_iff (s : State) : s.strictEndOk = true ↔
    s.decLen = s.cursor + 8 ∧ s.str.readBytes s.cursor 8 = endMarker := by
  simp only [State.strictEndOk, Bool.and_eq_true, decide_eq_true_eq]

/-- Everything a body step of a decode can do when a chunk is due: raise an error, or take a chunk's effect. -/
theorem step_decBody_cases {s : State} (h : s.chunkDue) :
    (∃ k ∈ [ErrorKind.unexpectedEof, .illegalRun, .pixelCountMismatch], step s = .next (s.chunkError k))
    ∨ ∃ length count p, 1 ≤ length ∧ 1 ≤ count ∧ count ≤ s.remaining
        ∧ step s = .next (s.emitChunk length count p) := by
  rw [step_decBody h.1 h.2.1 h.2.2.1, decBody]
  cases hf : s.fetchChunk with
  | none => exact .inl ⟨.unexpectedEof, by simp, rfl⟩
  | some i => exact exec_cases i h

/-! ### Frames compose -/

theorem SameParameters.refl (s : State) : SameParameters s s := ⟨rfl, rfl, rfl, rfl, rfl, rfl, rfl, rfl⟩

theorem SameParameters.trans {r s t : State} (h : SameParameters r s) (h' : SameParameters s t) :
    SameParameters r t :=
  ⟨h'.1.trans h.1, h'.2.trans h.2, h'.3.trans h.3, h'.4.trans h.4, h'.5.trans h.5, h'.6.trans h.6,
    h'.7.trans h.7, h'.8.trans h.8⟩

theorem SameDecResults.trans {r s t : State} (h : SameDecResults r s) (h' : SameDecResults s t) :
    SameDecResults r t :=
  ⟨h'.1.trans h.1, h'.2.trans h.2, h'.3.trans h.3, h'.4.trans h.4, h'.5.trans h.5⟩

/-! ### Runs -/

theorem runSteps_of_step {s t : State} (h : step s = .next t) (n : Nat) : runSteps (n + 1) s = runSteps n t := by
  simp only [runSteps, h]

/-- A halted block stays, however many steps are taken. -/
theorem runSteps_of_halted {s : State} (h : s.halted) (n : Nat) : runSteps n s = .next s := by
  induction n with
  | zero => rfl
  | succ n ih => rw [runSteps_of_step (step_of_halted h), ih]

/-- Once the block has halted, more steps change nothing. -/
theorem runSteps_mono {s t : State} {m n : Nat} (hm : runSteps m s = .next t) (ht : t.halted) (hn : m ≤ n) :
    runSteps n s = .next t := by
  induction m generalizing s n with
  | zero => simp only [runSteps] at hm; injection hm with hm; subst hm; exact runSteps_of_halted ht n
  | succ m ih =>
    obtain ⟨n, rfl⟩ : ∃ k, n = k + 1 := ⟨n - 1, by omega⟩
    simp only [runSteps] at hm ⊢
    cases hs : step s with
    | next u => rw [hs] at hm; exact ih hm (by omega)
    | fault f => rw [hs] at hm; simp at hm
    | refused r => rw [hs] at hm; simp at hm

end Sys2Proof.Machine
end

