-- ==== Sys2Proof/Laws/Encoder.lean ====
section
/-! SUPPORT. What each of the encoder's three steps can do, once and in full: cited instead of unfolding them. -/

namespace Sys2Proof.Machine

/-! ### The selector's tests -/

theorem within_iff {lo hi v : Int} : within lo hi v = true ↔ lo ≤ v ∧ v ≤ hi := by simp [within]

theorem sameAlpha_iff {c p : Word} : sameAlpha c p = true ↔ alpha c = alpha p := decide_eq_true_iff

/-- The delta test of DIFF in words (R143). -/
theorem diffEligible_iff {c p : Word} : diffEligible c p = true ↔
    (-2 ≤ deltaR c p ∧ deltaR c p ≤ 1) ∧ (-2 ≤ deltaG c p ∧ deltaG c p ≤ 1)
    ∧ (-2 ≤ deltaB c p ∧ deltaB c p ≤ 1) := by
  simp only [diffEligible, Bool.and_eq_true, within_iff, and_assoc]

/-- The delta test of LUMA in words (R144). -/
theorem lumaEligible_iff {c p : Word} : lumaEligible c p = true ↔
    (-32 ≤ deltaG c p ∧ deltaG c p ≤ 31)
    ∧ (-8 ≤ deltaR c p - deltaG c p ∧ deltaR c p - deltaG c p ≤ 7)
    ∧ (-8 ≤ deltaB c p - deltaG c p ∧ deltaB c p - deltaG c p ≤ 7) := by
  simp only [lumaEligible, Bool.and_eq_true, within_iff, and_assoc]

/-- A selected chunk has at most five bytes, and at most four where alpha is unchanged (R151). -/
theorem selectChunk_length (c p e : Word) :
    (encode (selectChunk c p e)).length ≤ 5
    ∧ (alpha c = alpha p → (encode (selectChunk c p e)).length ≤ 4) := by
  unfold selectChunk
  split_ifs with h1 h2 h3 h4 <;> simp [encode]
  exact fun h => h4 (sameAlpha_iff.2 h)

/-- In 3-channel mode the pixel fetched is opaque (R112, R150). -/
theorem alpha_nextPixel {s : State} (h : s.encChannels = 3) : alpha s.nextPixel = 255 := by
  simp [State.nextPixel, loadPixel, h]

/-! ### The start step -/

/-- Two appends are one. -/
theorem State.appended_appended (s : State) (a b : List Byte) : (s.appended a).appended b = s.appended (a ++ b) := by
  unfold State.appended; simp [Memory.writeBytes_append, Nat.add_assoc]

/-- The argument check in words (R131). -/
theorem encArgsOk_iff (s : State) : s.encArgsOk = true ↔
    (s.encChannels = 3 ∨ s.encChannels = 4) ∧ s.encColorspace.toNat ≤ 1
    ∧ s.encPixLen = s.encWidth.toNat * s.encHeight.toNat * s.encChannels.toNat := by
  simp only [State.encArgsOk, Bool.and_eq_true, Bool.or_eq_true, decide_eq_true_eq, and_assoc]; exact Iff.rfl

/-- The start step with bad arguments (R131). -/
theorem encStart_of_bad {s : State} (h : s.encArgsOk = false) : encStart s = s.raiseError .badArguments 0 := by
  rw [encStart, h]; rfl

/-- The start step with legal arguments (R132): the initial state with the header, or `OutOfCapacity` raised from the
state before the step (R251). -/
theorem encStart_of_ok {s : State} (h : s.encArgsOk = true) :
    (fits s.cfg.outCap 14 = true
      ∧ encStart s = (s.encInit.appended
          (headerBytes s.encWidth s.encHeight s.encChannels s.encColorspace)).setPhase (s.encPhase 0))
    ∨ (fits s.cfg.outCap 14 = false ∧ encStart s = s.raiseError .outOfCapacity 0) := by
  rw [encStart, if_pos h, State.appendHeader]
  rcases State.append_cases s.encInit (headerBytes s.encWidth s.encHeight s.encChannels s.encColorspace)
    with ⟨hf, e⟩ | ⟨hf, e⟩
  · exact .inl ⟨hf, congrArg (fun x => Action.settle (x.andThen fun t => .ok (t.setPhase (t.encPhase 0))) s) e⟩
  · exact .inr ⟨hf, congrArg (fun x => Action.settle (x.andThen fun t => .ok (t.setPhase (t.encPhase 0))) s) e⟩

/-! ### The pixel step -/

theorem emitPixel_of_eq {s : State} (h : s.nextPixel = s.prev) :
    s.fetchPixel.emitPixel = s.fetchPixel.accumulateRun := if_pos h

theorem emitPixel_of_ne {s : State} (h : s.nextPixel ≠ s.prev) :
    s.fetchPixel.emitPixel = (s.fetchPixel.setRunOpen false).append
      (encode (selectChunk s.nextPixel s.prev (s.idxRead (pixelHash s.nextPixel)))) := if_neg h

/-- Everything a pixel step can do (R135): raise `OutOfCapacity` from the state before the
step (R251), raise the tail byte of the open run, or append
0xC0 (run start, run overflow) or the selected chunk. -/
theorem encPixel_cases (s : State) :
    encPixel s = s.raiseError .outOfCapacity s.outLen
    ∨ (s.nextPixel = s.prev ∧ s.runOpen = true ∧ s.tailByte ≠ 0xFD
      ∧ encPixel s = s.fetchPixel.raiseTail.finishPixel)
    ∨ ∃ bs b, fits s.cfg.outCap (s.outLen + bs.length) = true
      ∧ encPixel s = ((s.fetchPixel.setRunOpen b).appended bs).finishPixel
      ∧ ((s.nextPixel = s.prev ∧ (s.runOpen = true → s.tailByte = 0xFD) ∧ bs = [0xC0] ∧ b = true)
        ∨ (s.nextPixel ≠ s.prev ∧ b = false
          ∧ bs = encode (selectChunk s.nextPixel s.prev (s.idxRead (pixelHash s.nextPixel))))) := by
  by_cases hp : s.nextPixel = s.prev
  · unfold encPixel
    rw [emitPixel_of_eq hp, State.accumulateRun]
    by_cases hr : s.runOpen = true
    · rw [if_pos (show s.fetchPixel.runOpen = true from hr)]
      by_cases ht : s.tailByte = 0xFD
      · rw [if_pos (show s.fetchPixel.tailByte = maxRunByte from ht), State.runOverflow]
        rcases State.append_cases s.fetchPixel (encode (.run 0)) with ⟨h, e⟩ | ⟨-, e⟩ <;> rw [e]
        · exact .inr (.inr ⟨[0xC0], true, h, by rw [← hr]; rfl, .inl ⟨hp, fun _ => ht, rfl, rfl⟩⟩)
        · exact .inl rfl
      · rw [if_neg (show ¬ s.fetchPixel.tailByte = maxRunByte from ht)]
        exact .inr (.inl ⟨hp, hr, ht, rfl⟩)
    · rw [if_neg (show ¬ s.fetchPixel.runOpen = true from hr), State.runStart]
      rcases State.append_cases s.fetchPixel (encode (.run 0)) with ⟨h, e⟩ | ⟨-, e⟩ <;> rw [e]
      · exact .inr (.inr ⟨[0xC0], true, h, rfl, .inl ⟨hp, fun h => absurd h hr, rfl, rfl⟩⟩)
      · exact .inl rfl
  · unfold encPixel
    rw [emitPixel_of_ne hp]
    rcases State.append_cases (s.fetchPixel.setRunOpen false)
      (encode (selectChunk s.nextPixel s.prev (s.idxRead (pixelHash s.nextPixel)))) with ⟨h, e⟩ | ⟨-, e⟩ <;> rw [e]
    · exact .inr (.inr ⟨_, false, h, rfl, .inr ⟨hp, rfl, rfl⟩⟩)
    · exact .inl rfl

/-! ### The end step -/

/-- The end step (R147): the end marker and DONE, or `OutOfCapacity`. -/
theorem encEnd_cases (s : State) :
    (fits s.cfg.outCap (s.outLen + 8) = true ∧ encEnd s = (s.appended endMarker).finishEncode)
    ∨ (fits s.cfg.outCap (s.outLen + 8) = false ∧ encEnd s = s.raiseError .outOfCapacity s.outLen) := by
  unfold encEnd
  rcases State.append_cases s endMarker with ⟨h, e⟩ | ⟨h, e⟩ <;> rw [e]
  · exact .inl ⟨h, rfl⟩
  · exact .inr ⟨h, rfl⟩

end Sys2Proof.Machine
end

