-- ==== Sys2Proof/Laws/PerInstr.lean ====
section
/-! SUPPORT. Statements about every chunk kind as syntax, one lemma per constructor. -/

/-- The length of a chunk is the one its first byte tells, between 1 and the longest chunk (R97). -/
def Sys2Proof.Laws.EncodeLength.Statement (i : Sys2Proof.Instr) : Prop :=
  i.wellFormed = true →
    1 ≤ (Sys2Proof.encode i).length ∧ (Sys2Proof.encode i).length ≤ Sys2Proof.maxChunkLength
    ∧ ∀ b0 bs, Sys2Proof.encode i = b0 :: bs → Sys2Proof.chunkLength b0 = (Sys2Proof.encode i).length

namespace Sys2Proof.Laws.EncodeLength

/-- The first byte of each kind tells the kind's length. -/
theorem firstByte (x : BitVec 6) :
    chunkLength (tagIndex ++ x) = 1 ∧ chunkLength (tagLuma ++ x) = 2
    ∧ (x.toNat < 62 → chunkLength (tagRun ++ x) = 1) := by
  revert x; decide

theorem rgb (r g b : Byte) : Statement (.rgb r g b) := by
  refine fun _ => ⟨by simp [encode], by simp [encode, maxChunkLength], ?_⟩
  rintro _ _ ⟨⟩; rfl

theorem rgba (r g b a : Byte) : Statement (.rgba r g b a) := by
  refine fun _ => ⟨by simp [encode], by simp [encode, maxChunkLength], ?_⟩
  rintro _ _ ⟨⟩; rfl

theorem index (idx : BitVec 6) : Statement (.index idx) := by
  refine fun _ => ⟨by simp [encode], by simp [encode, maxChunkLength], ?_⟩
  rintro _ _ ⟨⟩; exact (firstByte idx).1

theorem diff (fr fg fb : BitVec 2) : Statement (.diff fr fg fb) := by
  refine fun _ => ⟨by simp [encode], by simp [encode, maxChunkLength], ?_⟩
  rintro _ _ ⟨⟩
  revert fr fg fb; decide

theorem luma (fg : BitVec 6) (frg fbg : BitVec 4) : Statement (.luma fg frg fbg) := by
  refine fun _ => ⟨by simp [encode], by simp [encode, maxChunkLength], ?_⟩
  rintro _ _ ⟨⟩; exact (firstByte fg).2.1

theorem run (fr : BitVec 6) : Statement (.run fr) := by
  refine fun h => ⟨by simp [encode], by simp [encode, maxChunkLength], ?_⟩
  rintro _ _ ⟨⟩; exact (firstByte fr).2.2 (of_decide_eq_true h)

end Sys2Proof.Laws.EncodeLength
end

