-- ==== Sys2Proof/Tests/Slice0.lean ====
section
/-! SUPPORT. Tests on the spec's worked examples (each cites its rule or vector), and for every statement with
hypotheses a concrete state and operands that meet them together, per clause at the edges of its range. -/

namespace Sys2Proof.Tests

open Machine

/-! ### Small states -/

/-- A decode of a 70 x 1 image about to run the chunk whose bytes stand at 14, with `remaining` pixels owed. -/
def decoding (c : Byte) (prev : Word) (remaining decLen : Nat) (bytes : List Byte) : State :=
  { State.reset with
    status := .busy, op := .dec, phase := .body, decWidth := 70, decHeight := 1, decChannels := c, prev := prev
    remaining := remaining, pixWr := (70 - remaining) * c.toNat, decLen := decLen
    str := Memory.writeBytes [] 14 bytes }

/-- An encode of a 2 x 1 image about to take its first pixel, with `tail` already emitted after the header. -/
def encoding (c : Byte) (prev : Word) (runOpen : Bool) (tail pixels : List Byte) : State :=
  { State.reset with
    status := .busy, phase := .body, encWidth := 2, encHeight := 1, encChannels := c, encPixLen := 2 * c.toNat
    prev := prev, runOpen := runOpen, outLen := 14 + tail.length
    str := Memory.writeBytes [] 0 (headerBytes 2 1 c 0 ++ tail), pix := Memory.writeBytes [] 0 pixels }

/-- An encode of a `w` x 1 image that has just been started. -/
def encStarted (w : Word) (c cs : Byte) (len : Nat) (cap : Option Nat) : State :=
  State.writeCmd
    { State.reset with
      cfg := ⟨cap, none⟩, encWidth := w, encHeight := 1, encChannels := c, encColorspace := cs, encPixLen := len }
    .startEnc

/-- A decode of `bytes` (and zeros up to `len` bytes) that has just been started. -/
def decStarted (bytes : List Byte) (len : Nat) (cap : Option Nat) : State :=
  State.writeCmd { State.reset with cfg := ⟨none, cap⟩, decLen := len, str := Memory.writeBytes [] 0 bytes } .startDec

/-- The end of an operation, `n` bytes out of or into STR. -/
def ending (op : Engine) (n : Nat) (cap : Option Nat) : State :=
  { State.reset with status := .busy, op := op, phase := .fin, outLen := n, cfg := ⟨cap, none⟩ }

/-- A state with OUT_CAP `cap`. -/
def capped (s : State) (cap : Nat) : State := { s with cfg := ⟨some cap, none⟩ }

/-- Whether `n` more bytes fit with OUT_CAP exactly their end, and with one byte less. -/
def fitsAndNot (s : State) (n : Nat) : List Bool :=
  [s.outLen + n, s.outLen + n - 1].map fun cap => fits (capped s cap).cfg.outCap ((capped s cap).outLen + n)

/-- A field of the next state, if there is one. -/
def nextOf {α : Type} (f : State → α) (o : Host.Outcome State Fault Refusal) : Option α :=
  match o with
  | .next t => some (f t)
  | .fault _ => none
  | .refused _ => none

/-! ### Syntax and decoding -/

/-- R94: payloads 62 and 63 do not exist as RUN chunks. -/
theorem test_wellFormed_refuses_run_62 : (Instr.run 62).wellFormed = false := by decide
theorem test_wellFormed_refuses_run_63 : (Instr.run 63).wellFormed = false := by decide
theorem test_wellFormed_takes_run_61 : (Instr.run 61).wellFormed = true := by decide

/-- R177's example `FE FF 00 00`. -/
theorem test_decode_rgb : decode [0b11111110, 0b11111111, 0, 0, 7] = .ok (.rgb 255 0 0, [7]) := by rfl
/-- R178's example `FF 01 02 03 04`. -/
theorem test_decode_rgba : decode [0b11111111, 1, 2, 3, 4] = .ok (.rgba 1 2 3 4, []) := by rfl
/-- R179's example `09`. -/
theorem test_decode_index : decode [0b00001001] = .ok (.index 9, []) := by rfl
/-- R180's example `7A`: fields 3, 2, 2. -/
theorem test_decode_diff : decode [0b01111010] = .ok (.diff 3 2 2, []) := by rfl
/-- R181's example `BE 88`: dg 30, both nibbles 8. -/
theorem test_decode_luma : decode [0b10111110, 0b10001000] = .ok (.luma 62 8 8, []) := by rfl
/-- R182's example `FD`: count 62. -/
theorem test_decode_run : decode [0b11111101] = .ok (.run 61, []) := by rfl
/-- R97: `FF` alone is the start of five bytes. -/
theorem test_decode_truncated : decode [0xFF, 1, 2, 3] = .error (.truncated 5) := by rfl
/-- R176, R87: the low byte of a table word is the first byte. -/
theorem test_decodeTableWord_luma : decodeTableWord 16 0x9680 = some (.luma 0 9 6) := by decide

/-! ### Chunk steps -/

/-- R177's example. -/
theorem test_rgb_step : nextOf (fun t => (t.cur, t.idxRead 50, t.cursor)) (step (decoding 4 0xFF 1 30 [0xFE, 0xFF, 0, 0]))
    = some (0xFF0000FF, 0xFF0000FF, 18) := by decide
/-- R176: `L = 4` does not fit: UnexpectedEof. -/
theorem test_rgb_short : nextOf (fun t => (t.status, t.err)) (step (decoding 4 0xFF 1 17 [0xFE, 0xFF, 0, 0]))
    = some (.error, 4) := by decide
/-- R178's example. -/
theorem test_rgba_step : nextOf (fun t => (t.cur, t.idxRead 14)) (step (decoding 4 0xFF 1 30 [0xFF, 1, 2, 3, 4]))
    = some (0x01020304, 0x01020304) := by decide
/-- R186: in a 3-channel stream the alpha goes to `prev` and not to PIX. -/
theorem test_rgba_step_3_channels :
    nextOf (fun t => (t.prev, t.pix)) (step (decoding 3 0xFF 70 30 [0xFF, 1, 2, 3, 4]))
    = some (0x01020304, [(0, 1), (1, 2), (2, 3)]) := by decide
/-- R179's example: `IDX[9] = 0x0A141EFF`, byte `09`. -/
theorem test_index_step :
    nextOf (fun t => (t.cur, t.cursor)) (step ((decoding 4 0xFF 1 30 [0x09]).update 0x0A141EFF))
    = some (0x0A141EFF, 15) := by decide
/-- R179 (b), conflict C1: a never-written entry writes `IDX[0] <- 0` (before, `IDX[0]` held a pixel of hash 0). -/
theorem test_index_step_writes_entry_0 :
    nextOf (fun t => (t.cur, t.idxRead 0)) (step ((decoding 4 0xFF 1 30 [0x05]).update 0x00000040)) = some (0, 0) := by
  decide
/-- R180's example: `prev = 0x000000FF`, byte `7A`. -/
theorem test_diff_step : nextOf State.cur (step (decoding 4 0x000000FF 1 30 [0x7A])) = some 0x010000FF := by decide
/-- R180: `prev.R = 0`, `dr = -2` gives 254. -/
theorem test_diff_wraps : nextOf State.cur (step (decoding 4 0x000000FF 1 30 [0x4A])) = some 0xFE0000FF := by decide
/-- R181's example. -/
theorem test_luma_step : nextOf State.cur (step (decoding 4 0x0A141EFF 1 30 [0xBE, 0x88])) = some 0x28323CFF := by
  decide
/-- R181's example with wrap. -/
theorem test_luma_wraps : nextOf State.cur (step (decoding 4 0x050505FF 1 30 [0x80, 0x00])) = some 0xDDE5DDFF := by
  decide
/-- R182's example: `remaining = 63`, byte `FD`; the index is updated (conflict C2). -/
theorem test_run_step :
    nextOf (fun t => (t.remaining, t.idxRead 53, t.pixWr)) (step (decoding 3 0x000000FF 63 30 [0xFD]))
    = some (1, 0x000000FF, 207) := by decide
/-- D12: a run longer than the pixels owed. -/
theorem test_run_too_long : nextOf (fun t => (t.status, t.err, t.decWidth)) (step (decoding 4 0xFF 61 30 [0xFD]))
    = some (.error, 6, 0) := by decide

/-! ### Encoder and decoder steps -/

/-- The bytes after the header and `out_len`. -/
def tailOf (t : State) : List Byte × Nat := (t.str.readBytes 14 (t.outLen - 14), t.outLen)

/-- R138: `§8 S1`, chunk `C0`. -/
theorem test_run_start : nextOf tailOf (step (encoding 4 0xFF false [] [0, 0, 0, 255])) = some ([0xC0], 15) := by decide
/-- R139's example: after `C0`, `C1`. -/
theorem test_run_extension :
    nextOf tailOf (step (encoding 4 0xFF true [0xC0] [0, 0, 0, 255])) = some ([0xC1], 15) := by decide
/-- R140's example: `FD C0`. -/
theorem test_run_overflow :
    nextOf tailOf (step (encoding 4 0xFF true [0xFD] [0, 0, 0, 255])) = some ([0xFD, 0xC0], 16) := by decide
/-- R142's example: `IDX[9] = 0x0A141EFF`, chunk `09`. -/
theorem test_emit_index :
    nextOf tailOf (step { (encoding 4 0xFF false [] [10, 20, 30, 255]).update 0x0A141EFF with prev := 0x28323CFF })
    = some ([0x09], 15) := by decide
/-- R143's example: deltas -2, +1, 0. -/
theorem test_emit_diff :
    nextOf tailOf (step (encoding 4 0x0A0A0AFF false [] [8, 11, 10, 255])) = some ([0x4E], 15) := by decide
/-- R144's example: dg -32, dr - dg -8, db - dg +7; an open run is closed. -/
theorem test_emit_luma :
    nextOf (fun t => (tailOf t, t.runOpen)) (step (encoding 4 0x646464FF true [0xC0] [60, 68, 75, 255]))
    = some (([0xC0, 0x80, 0x0F], 17), false) := by decide
/-- R145, R137: 255 to 0 is a delta of -255, no DIFF (V-E4). -/
theorem test_emit_rgb :
    nextOf tailOf (step (encoding 4 0xFFFFFFFF false [] [0, 0, 0, 255])) = some ([0xFE, 0, 0, 0], 18) := by decide
/-- R146's example. -/
theorem test_emit_rgba :
    nextOf tailOf (step (encoding 4 0x000000FF false [] [1, 2, 3, 4])) = some ([0xFF, 1, 2, 3, 4], 19) := by decide
/-- R132's example: width 2, height 1, 3 channels, colorspace 0. -/
theorem test_encode_header :
    nextOf (fun t => t.str.readBytes 0 14) (step (encStarted 2 3 0 6 none))
    = some [0x71, 0x6F, 0x69, 0x66, 0, 0, 0, 2, 0, 0, 0, 1, 3, 0] := by decide
/-- R131's example: `ENC_CHANNELS = 5`. -/
theorem test_encode_bad_channels :
    nextOf (fun t => (t.status, t.err, t.encOutLen)) (step (encStarted 1 5 0 5 none)) = some (.error, 8, 0) := by decide
/-- R132, R251: a header that does not fit changes neither `out_len` nor STR. -/
theorem test_encode_header_too_long :
    nextOf (fun t => (t.status, t.err, t.str, t.prev)) (step { encStarted 2 3 0 6 (some 13) with prev := 0x01020304 })
    = some (.error, 10, [], 0x01020304) := by decide
/-- R251: a chunk that does not fit leaves the run open and `cur` as it was. -/
theorem test_emit_too_long :
    nextOf (fun t => (t.err, t.runOpen, t.cur)) (step (capped (encoding 4 0xFF true [0xC0] [1, 2, 3, 4]) 19))
    = some (10, true, 0) := by decide
/-- R147: the end marker. -/
theorem test_encode_end :
    nextOf (fun t => (t.status, t.encOutLen, t.str.readBytes 15 8)) (step (ending .enc 15 none))
    = some (.done, 23, [0, 0, 0, 0, 0, 0, 0, 1]) := by decide
/-- R172's example: "abcd" and 18 zero bytes. -/
theorem test_decode_bad_magic :
    nextOf (fun t => (t.status, t.err)) (step (decStarted [0x61, 0x62, 0x63, 0x64] 22 none)) = some (.error, 2) := by
  decide
/-- R175: a 70000 x 1 image has its width in bytes 4 to 7, high byte first. -/
theorem test_decode_width :
    nextOf (fun t => (t.decWidth, t.remaining)) (step (decStarted (headerBytes 70000 1 4 1) 30 none))
    = some (70000, 70000) := by decide
/-- R32: a command while BUSY is ignored. -/
theorem test_command_while_busy : ((ending .enc 14 none).writeCmd .startDec).op = .enc := by decide

/-! ### Witnesses: encodings -/

theorem witness_DecodeUndoesEncode : (Instr.run 61).wellFormed = true := by decide

theorem witness_EncodeUndoesDecode : decode [0xFD, 0x09] = .ok (.run 61, [0x09]) := by rfl

/-- One first byte of each length at the edges, with just enough bytes and one too few. -/
theorem witness_FirstByteTellsLength :
    let len (b0 : Byte) : Nat :=
      if b0 = 0xFE then 4 else if b0 = 0xFF then 5 else if 0x80 ≤ b0.toNat ∧ b0.toNat < 0xC0 then 2 else 1
    (4 = len 0xFE ∧ 5 = len 0xFF ∧ 2 = len 0x80 ∧ 2 = len 0xBF ∧ 1 = len 0x7F ∧ 1 = len 0xC0 ∧ 1 = len 0xFD)
    ∧ (4 ≤ [(0 : Byte), 0, 0].length + 1 ∧ [(0 : Byte), 0].length + 1 < 4)
    ∧ (5 ≤ [(0 : Byte), 0, 0, 0].length + 1 ∧ [(0 : Byte), 0, 0].length + 1 < 5)
    ∧ (2 ≤ [(0 : Byte)].length + 1 ∧ ([] : List Byte).length + 1 < 2) := by decide

/-- The edges of the six ranges; each byte meets one clause only. -/
theorem witness_FirstByteSelectsChunk :
    ((0x00 : Byte).toNat < 0x40 ∧ (0x3F : Byte).toNat < 0x40)
    ∧ (0x40 ≤ (0x40 : Byte).toNat ∧ (0x7F : Byte).toNat < 0x80)
    ∧ (0x80 ≤ (0x80 : Byte).toNat ∧ (0xBF : Byte).toNat < 0xC0)
    ∧ (0xC0 ≤ (0xC0 : Byte).toNat ∧ (0xFD : Byte).toNat ≤ 0xFD)
    ∧ (0xFE : Byte).toNat = 0xFE ∧ (0xFF : Byte).toNat = 0xFF := by decide

theorem witness_TableWordDecodes : (Instr.run 0).wellFormed = true := by decide

/-- Every kind of line at the ends of its ranges. -/
theorem witness_ListingLineBytes :
    (Line.rgb 255 0 255).legal = true ∧ (Line.rgba 0 255 0 255).legal = true ∧ (Line.index 63).legal = true
    ∧ (Line.diff (-2) 1 (-2)).legal = true ∧ (Line.luma (-32) 7 (-8)).legal = true ∧ (Line.run 62).legal = true
    ∧ (Line.diff (-2) 1 (-2)).chunk = some (.diff 0 3 0) ∧ (Line.luma (-32) 7 (-8)).chunk = some (.luma 0 15 0)
    ∧ (Line.run 62).chunk = some (.run 61) := by decide

theorem witness_BiasedFieldsCoverSignedRange :
    ((-2 : Int) ≤ -2 ∧ (-2 : Int) ≤ 1) ∧ ((-32 : Int) ≤ 31 ∧ (31 : Int) ≤ 31) ∧ ((-8 : Int) ≤ 7 ∧ (7 : Int) ≤ 7) := by
  decide

/-! ### Witnesses: shared primitives -/

theorem witness_StorePixelWritesComponents : Memory.wf [(3, 0x07)] = true := by decide

/-- A capacity of exactly the bytes asked for, and one less. -/
theorem witness_AppendTakesAllOrRaises :
    (ending .enc 14 (some 16)).str.wf = true ∧ (ending .enc 14 (some 16)).cfg.outCap = some 16
    ∧ (ending .enc 14 (some 16)).outLen + [(0x80 : Byte), 0x00].length ≤ 16
    ∧ 15 < (ending .enc 14 (some 15)).outLen + [(0x80 : Byte), 0x00].length := by decide

/-! ### Witnesses: chunks -/

/-- `DEC_LEN` just long enough for the chunk, and one byte short; the last pixel owed; both channel counts. -/
theorem witness_RgbTakesThreeComponents :
    (decoding 3 0xFF 1 18 []).chunkDue ∧ (decoding 3 0xFF 1 18 []).pix.wf = true
    ∧ (decoding 3 0xFF 1 18 []).cursor + 4 ≤ (decoding 3 0xFF 1 18 []).decLen
    ∧ (decoding 4 0xFF 1 17 []).chunkDue ∧ (decoding 4 0xFF 1 17 []).decLen < (decoding 4 0xFF 1 17 []).cursor + 4 := by
  decide

theorem witness_RgbaTakesFourComponents :
    (decoding 3 0xFF 1 19 []).chunkDue ∧ (decoding 3 0xFF 1 19 []).pix.wf = true
    ∧ (decoding 3 0xFF 1 19 []).cursor + 5 ≤ (decoding 3 0xFF 1 19 []).decLen
    ∧ (decoding 4 0xFF 1 18 []).chunkDue ∧ (decoding 4 0xFF 1 18 []).decLen < (decoding 4 0xFF 1 18 []).cursor + 5 := by
  decide

theorem witness_IndexTakesTableEntry :
    (decoding 3 0xFF 1 15 [0x09]).chunkDue ∧ (decoding 3 0xFF 1 15 [0x09]).pix.wf = true := by decide

theorem witness_DiffAddsDeltas :
    (decoding 4 0xFF 70 15 [0x4A]).chunkDue ∧ (decoding 4 0xFF 70 15 [0x4A]).pix.wf = true := by decide

theorem witness_LumaAddsDeltas :
    (decoding 4 0xFF 1 16 []).chunkDue ∧ (decoding 4 0xFF 1 16 []).pix.wf = true
    ∧ (decoding 4 0xFF 1 16 []).cursor + 2 ≤ (decoding 4 0xFF 1 16 []).decLen
    ∧ (decoding 4 0xFF 1 15 []).chunkDue ∧ (decoding 4 0xFF 1 15 []).decLen < (decoding 4 0xFF 1 15 []).cursor + 2 := by
  decide

/-- The illegal payloads' low edge; a run of 62 with 61 and with 62 pixels owed. -/
theorem witness_RunRepeatsPrev :
    (decoding 4 0xFF 61 15 []).chunkDue ∧ (decoding 4 0xFF 61 15 []).pix.wf = true
    ∧ 62 ≤ (62 : BitVec 6).toNat ∧ (61 : BitVec 6).toNat < 62
    ∧ (decoding 4 0xFF 61 15 []).remaining < (61 : BitVec 6).toNat + 1
    ∧ (decoding 4 0xFF 62 15 []).chunkDue ∧ (61 : BitVec 6).toNat + 1 ≤ (decoding 4 0xFF 62 15 []).remaining := by
  decide

theorem witness_ChunkNotDueStops :
    ¬ State.reset.chunkDue ∧ ¬ (encoding 4 0xFF false [] []).chunkDue ∧ ¬ (decoding 4 0xFF 0 30 []).chunkDue := by
  decide

/-- A chunk of five bytes that ends exactly where the input ends. -/
theorem witness_StepRunsChunkAtCursor :
    let s := decoding 4 0xFF 1 19 [0xFF, 1, 2, 3, 4]
    let i := Instr.rgba 1 2 3 4
    i.wellFormed = true ∧ s.chunkDue ∧ s.cursor + (encode i).length ≤ s.decLen
      ∧ s.str.readBytes s.cursor (encode i).length = encode i := by decide

theorem witness_StepRunsFetchWord : (Instr.run 61).wellFormed = true ∧ State.reset.str.wf = true := by decide

/-- No byte at `cursor`; a chunk one byte too long; a chunk that just fits. -/
theorem witness_UnexpectedEofExactlyOnShortInput :
    (decoding 4 0xFF 1 14 []).chunkDue ∧ (decoding 4 0xFF 1 14 []).decLen ≤ (decoding 4 0xFF 1 14 []).cursor
    ∧ (decoding 4 0xFF 1 15 [0x80]).decLen < (decoding 4 0xFF 1 15 [0x80]).cursor
        + chunkLength ((decoding 4 0xFF 1 15 [0x80]).str.read 14)
    ∧ (decoding 4 0xFF 1 16 [0x80]).chunkDue
    ∧ (decoding 4 0xFF 1 16 [0x80]).cursor + chunkLength ((decoding 4 0xFF 1 16 [0x80]).str.read 14)
        ≤ (decoding 4 0xFF 1 16 [0x80]).decLen
    ∧ nextOf State.err (step (decoding 4 0xFF 1 15 [0x80])) = some 4 ∧ (decoding 4 0xFF 1 15 [0x80]).err ≠ 4 := by
  decide

/-- A step that raises an error, and one that does not. -/
theorem witness_StepNeverRaisesIllegalRun :
    (∃ t, step (decoding 4 0xFF 1 15 [0x80]) = .next t) ∧ ∃ t, step (decoding 4 0xFF 1 16 [0x80]) = .next t :=
  ⟨⟨_, rfl⟩, ⟨_, rfl⟩⟩

/-! ### Witnesses: errors, halting, the host -/

theorem witness_RaiseErrorEffect :
    (encoding 4 0xFF false [] []).op = .enc ∧ (decoding 4 0xFF 1 30 []).op = .dec ∧ 14 ≤ 14 := by decide

theorem witness_HaltedBlockStays :
    State.reset.status ≠ .busy ∧ (decoding 4 0xFF 1 15 [0x80]).chunkDue
    ∧ ((decoding 4 0xFF 1 15 [0x80]).chunkError .unexpectedEof).status ≠ .busy
    ∧ (decEnd (ending .dec 0 none)).status ≠ .busy := by decide

theorem witness_StartCommandEffect :
    State.reset.status ≠ .busy ∧ (ending .enc 14 none).status = .busy := by decide

/-- One buffer and one parameter write, one buffer and one result read, and a second address. -/
theorem witness_HostOwnsBuffersOnlyWhenNotBusy :
    State.reset.status ≠ .busy ∧ State.reset.pix.wf = true ∧ State.reset.str.wf = true
    ∧ (ending .dec 14 none).status = .busy
    ∧ (∀ m ∈ [HostMove.encWidth 1, .decStrict true, .pix 0 1, .str 0 1], (∀ c, m ≠ .command c) ∧ m ≠ .hardwareReset)
    ∧ (∀ r ∈ [HostReg.encOutLen, .decPixLen, .pix 0, .str 0], r ≠ .status ∧ r ≠ .err ∧ r ≠ .cmd)
    ∧ (1 : Nat) ≠ 0 := by
  refine ⟨by decide, by decide, by decide, by decide, ?_, by decide, by decide⟩
  intro m hm
  simp only [List.mem_cons, List.not_mem_nil, or_false] at hm
  rcases hm with rfl | rfl | rfl | rfl <;> exact ⟨fun c => by simp, by simp⟩

theorem witness_HostWritesParametersAndReadsResults : State.reset.status ≠ .busy := by decide

/-- An error at the start, in the body and at the end of an operation of each engine. -/
theorem witness_ErrorLeavesPreviousState :
    ∀ s ∈ [encStarted 2 3 0 6 (some 13), capped (encoding 4 0xFF true [0xC0] [1, 2, 3, 4]) 19, ending .enc 15 (some 22),
        decStarted [] 21 none, decoding 4 0xFF 1 15 [0x80],
        { decoding 4 0xFF 0 23 [] with phase := .fin, decStrict := true }],
      s.status = .busy ∧ nextOf State.status (step s) = some .error := by decide

theorem witness_ResetValues : ∃ t, hostMove .hardwareReset (decoding 4 0xFF 1 30 []) = .next t := ⟨_, rfl⟩

/-- A state whose operation is still at its start meets the invariant when its memories are canonical. -/
theorem inv_of_start {s : State} (hp : s.pix.wf = true) (hs : s.str.wf = true) (hb : s.status = .busy)
    (he : s.err = 0) (hph : s.phase = .start) : Inv s where
  pixWf := hp
  strWf := hs
  errZero _ := he
  errCode h := by simp [hb] at h
  encError h := by simp [hb] at h
  decError h := by simp [hb] at h
  decDone h := by simp [hb] at h
  encRunning _ _ h := absurd hph h
  decRunning _ _ h := absurd hph h

theorem witness_HostMovesKeepInv :
    Inv (encStarted 2 3 0 6 none) ∧ (∃ t, hostMove (.command .startDec) (encStarted 2 3 0 6 none) = .next t)
    ∧ ∃ t, hostMove .hardwareReset (encStarted 2 3 0 6 none) = .next t :=
  ⟨inv_of_start rfl rfl rfl rfl rfl, ⟨_, rfl⟩, ⟨_, rfl⟩⟩

/-! ### Witnesses: the encoder -/

/-- Legal arguments, and each of the three that is not. -/
theorem witness_EncodeRejectsBadArguments :
    let start (s : State) : Bool := s.status = .busy ∧ s.op = .enc ∧ s.phase = .start ∧ s.err = 0
    start (encStarted 2 3 1 6 none) = true ∧ start (encStarted 2 5 0 10 none) = true
    ∧ start (encStarted 2 3 2 6 none) = true ∧ start (encStarted 2 3 0 7 none) = true := by decide

/-- A capacity of exactly the header, and one byte less. -/
theorem witness_EncodeStartInitialises :
    let s (cap : Nat) := encStarted 2 4 1 8 (some cap)
    (s 14).status = .busy ∧ (s 14).op = .enc ∧ (s 14).phase = .start ∧ (s 14).str.wf = true
      ∧ ((s 14).encChannels = 3 ∨ (s 14).encChannels = 4) ∧ (s 14).encColorspace.toNat ≤ 1
      ∧ (s 14).encPixLen = (s 14).encWidth.toNat * (s 14).encHeight.toNat * (s 14).encChannels.toNat
      ∧ fits (s 14).cfg.outCap 14 = true ∧ fits (s 13).cfg.outCap 14 = false := by decide

/-- Run start. OUT_CAP of exactly the output, and one byte less. -/
theorem witness_RunStartAppendsCount1 :
    let base := encoding 4 0xFF false [] [0, 0, 0, 255]
    (∀ s ∈ [capped base (base.outLen + 1), capped base (base.outLen + 1 - 1)],
      s.pixelDue ∧ s.str.wf = true ∧ s.nextPixel = s.prev ∧ s.runOpen = false)
      ∧ fitsAndNot base 1 = [true, false] := by decide

/-- The tail byte one below full. -/
theorem witness_RunExtensionRaisesTailByte :
    let s := encoding 3 0xFF true [0xFC] [0, 0, 0]
    s.pixelDue ∧ s.str.wf = true ∧ s.nextPixel = s.prev ∧ s.runOpen = true
      ∧ s.str.read (s.outLen - 1) ≠ 0xFD := by decide

/-- Run overflow. OUT_CAP of exactly the output, and one byte less. -/
theorem witness_RunOverflowAppendsFreshRun :
    let base := encoding 3 0xFF true [0xFD] [0, 0, 0]
    (∀ s ∈ [capped base (base.outLen + 1), capped base (base.outLen + 1 - 1)],
      s.pixelDue ∧ s.str.wf = true ∧ s.nextPixel = s.prev ∧ s.runOpen = true
        ∧ s.str.read (s.outLen - 1) = 0xFD)
      ∧ fitsAndNot base 1 = [true, false] := by decide

/-- A hit on entry 0, an open run. OUT_CAP of exactly the output, and one byte less. -/
theorem witness_EncoderEmitsIndexOnHit :
    let base := encoding 4 0xFF true [0xC0] [0, 0, 0, 0]
    (∀ s ∈ [capped base (base.outLen + 1), capped base (base.outLen + 1 - 1)],
      s.pixelDue ∧ s.str.wf = true ∧ s.nextPixel ≠ s.prev ∧ s.idxRead (pixelHash s.nextPixel) = s.nextPixel)
      ∧ fitsAndNot base 1 = [true, false] := by decide

/-- The edges of DIFF. OUT_CAP of exactly the output, and one byte less. -/
theorem witness_EncoderEmitsDiff :
    let base := encoding 4 0x0A0A0AFF false [] [8, 11, 8, 255]
    let dr : Int := -2
    let dg : Int := 1
    let db : Int := -2
    (∀ s ∈ [capped base (base.outLen + 1), capped base (base.outLen + 1 - 1)],
      s.pixelDue ∧ s.str.wf = true ∧ s.nextPixel ≠ s.prev ∧ s.idxRead (pixelHash s.nextPixel) ≠ s.nextPixel
      ∧ alpha s.nextPixel = alpha s.prev
      ∧ dr = (red s.nextPixel).toNat - (red s.prev).toNat
      ∧ dg = (green s.nextPixel).toNat - (green s.prev).toNat
      ∧ db = (blue s.nextPixel).toNat - (blue s.prev).toNat
      ∧ ((-2 ≤ dr ∧ dr ≤ 1) ∧ (-2 ≤ dg ∧ dg ≤ 1) ∧ (-2 ≤ db ∧ db ≤ 1)))
      ∧ fitsAndNot base 1 = [true, false] := by decide

/-- The edges of LUMA: dg -32, dr - dg -8, db - dg +7. OUT_CAP of exactly the output, and one byte less. -/
theorem witness_EncoderEmitsLuma :
    let base := encoding 4 0x646464FF false [] [60, 68, 75, 255]
    let dr : Int := -40
    let dg : Int := -32
    let db : Int := -25
    (∀ s ∈ [capped base (base.outLen + 2), capped base (base.outLen + 2 - 1)],
      s.pixelDue ∧ s.str.wf = true ∧ s.nextPixel ≠ s.prev ∧ s.idxRead (pixelHash s.nextPixel) ≠ s.nextPixel
      ∧ alpha s.nextPixel = alpha s.prev
      ∧ dr = (red s.nextPixel).toNat - (red s.prev).toNat
      ∧ dg = (green s.nextPixel).toNat - (green s.prev).toNat
      ∧ db = (blue s.nextPixel).toNat - (blue s.prev).toNat
      ∧ ¬ ((-2 ≤ dr ∧ dr ≤ 1) ∧ (-2 ≤ dg ∧ dg ≤ 1) ∧ (-2 ≤ db ∧ db ≤ 1))
      ∧ ((-32 ≤ dg ∧ dg ≤ 31) ∧ (-8 ≤ dr - dg ∧ dr - dg ≤ 7) ∧ (-8 ≤ db - dg ∧ db - dg ≤ 7)))
      ∧ fitsAndNot base 2 = [true, false] := by decide

/-- dr +8 with dg 0: just past LUMA. OUT_CAP of exactly the output, and one byte less. -/
theorem witness_EncoderEmitsRgb :
    let base := encoding 4 0x646464FF false [] [108, 100, 100, 255]
    let dr : Int := 8
    let dg : Int := 0
    let db : Int := 0
    (∀ s ∈ [capped base (base.outLen + 4), capped base (base.outLen + 4 - 1)],
      s.pixelDue ∧ s.str.wf = true ∧ s.nextPixel ≠ s.prev ∧ s.idxRead (pixelHash s.nextPixel) ≠ s.nextPixel
      ∧ alpha s.nextPixel = alpha s.prev
      ∧ dr = (red s.nextPixel).toNat - (red s.prev).toNat
      ∧ dg = (green s.nextPixel).toNat - (green s.prev).toNat
      ∧ db = (blue s.nextPixel).toNat - (blue s.prev).toNat
      ∧ ¬ ((-2 ≤ dr ∧ dr ≤ 1) ∧ (-2 ≤ dg ∧ dg ≤ 1) ∧ (-2 ≤ db ∧ db ≤ 1))
      ∧ ¬ ((-32 ≤ dg ∧ dg ≤ 31) ∧ (-8 ≤ dr - dg ∧ dr - dg ≤ 7) ∧ (-8 ≤ db - dg ∧ db - dg ≤ 7)))
      ∧ fitsAndNot base 4 = [true, false] := by decide

/-- Alpha changes, no hit. OUT_CAP of exactly the output, and one byte less. -/
theorem witness_EncoderEmitsRgba :
    let base := encoding 4 0x000000FF false [] [1, 2, 3, 4]
    (∀ s ∈ [capped base (base.outLen + 5), capped base (base.outLen + 5 - 1)],
      s.pixelDue ∧ s.str.wf = true ∧ s.nextPixel ≠ s.prev ∧ s.idxRead (pixelHash s.nextPixel) ≠ s.nextPixel
      ∧ alpha s.nextPixel ≠ alpha s.prev)
      ∧ fitsAndNot base 5 = [true, false] := by decide

/-- A capacity of exactly the output, and one byte less. -/
theorem witness_EncodeEndAppendsMarker :
    let s (cap : Nat) := ending .enc 15 (some cap)
    (s 23).status = .busy ∧ (s 23).op = .enc ∧ (s 23).phase = .fin ∧ (s 23).str.wf = true
      ∧ fits (s 23).cfg.outCap ((s 23).outLen + 8) = true ∧ fits (s 22).cfg.outCap ((s 22).outLen + 8) = false := by
  decide

theorem witness_EncoderOutputPrefixIsFinal :
    let s := encoding 4 0xFF false [] [1, 2, 3, 4]
    s.status = .busy ∧ s.op = .enc ∧ s.phase ≠ .start ∧ s.runOpen = false
      ∧ (∃ t, step s = .next t) ∧ nextOf State.status (step s) = some .busy :=
  ⟨rfl, rfl, by decide, rfl, ⟨_, rfl⟩, by decide⟩

/-! ### Witnesses: the decoder -/

/-- One input for each clause, each check passed but its own. -/
theorem witness_DecodeStartChecksInOrder :
    let s (c cs : Byte) (len : Nat) := decStarted (headerBytes 1 1 c cs) len none
    (s 4 0 21).status = .busy ∧ (s 4 0 21).op = .dec ∧ (s 4 0 21).phase = .start ∧ (s 4 0 21).decLen < 22
      ∧ 22 ≤ (s 4 2 22).decLen ∧ (s 4 2 22).str.read 0 = 0x71 ∧ (s 4 2 22).str.read 1 = 0x6F
      ∧ (s 4 2 22).str.read 2 = 0x69 ∧ (s 4 2 22).str.read 3 = 0x66 ∧ 1 < ((s 4 2 22).str.read 13).toNat
      ∧ ((s 5 1 22).str.read 13).toNat ≤ 1 ∧ (s 5 1 22).str.read 12 ≠ 3 ∧ (s 5 1 22).str.read 12 ≠ 4
      ∧ (decStarted [0x71, 0x6F, 0x69, 0x67] 22 none).str.read 3 ≠ 0x66 := by decide

/-- A capacity of exactly the image, and one byte less. -/
theorem witness_DecodeStartInitialises :
    let s (cap : Nat) := decStarted (headerBytes 2 1 3 1) 22 (some cap)
    (s 6).status = .busy ∧ (s 6).op = .dec ∧ (s 6).phase = .start ∧ 22 ≤ (s 6).decLen
      ∧ (s 6).str.readBytes 0 4 = [0x71, 0x6F, 0x69, 0x66] ∧ ((s 6).str.read 13).toNat ≤ 1
      ∧ ((s 6).str.read 12 = 3 ∨ (s 6).str.read 12 = 4)
      ∧ (s 6).str.readBytes 4 8 = be32Bytes 2 ++ be32Bytes 1
      ∧ fits (s 6).cfg.pixCap (2 * 1 * ((s 6).str.read 12).toNat) = true
      ∧ fits (s 5).cfg.pixCap (2 * 1 * ((s 5).str.read 12).toNat) = false := by decide

/-- Lenient; strict with the marker; strict with one byte more. -/
theorem witness_DecodeEndStrictOrLenient :
    let s (strict : Bool) (len : Nat) : State :=
      { decoding 4 0xFF 0 len [0, 0, 0, 0, 0, 0, 0, 1] with phase := .fin, decStrict := strict }
    (s false 14).status = .busy ∧ (s false 14).op = .dec ∧ (s false 14).phase = .fin ∧ (s false 14).decStrict = false
      ∧ (s true 22).decLen = (s true 22).cursor + 8 ∧ (s true 22).str.readBytes 14 8 = [0, 0, 0, 0, 0, 0, 0, 1]
      ∧ (s true 23).decStrict = true ∧ (s true 23).decLen ≠ (s true 23).cursor + 8 := by decide

theorem witness_ChunkStepMakesProgress :
    let s := decoding 4 0xFF 1 16 [0x80]
    s.chunkDue ∧ (∃ t, step s = .next t) ∧ nextOf State.status (step s) = some .busy :=
  ⟨by decide, ⟨_, rfl⟩, by decide⟩

/-! ### Witnesses: whole-machine statements -/

theorem witness_StepsStayInTheirSpaces :
    (∃ t, step (decoding 4 0xFF 1 16 [0x80]) = .next t) ∧ (decoding 4 0xFF 1 16 [0x80]).op = .dec
    ∧ (∃ t, step (encoding 4 0xFF false [] []) = .next t) ∧ (encoding 4 0xFF false [] []).op = .enc :=
  ⟨⟨_, rfl⟩, rfl, ⟨_, rfl⟩, rfl⟩

/-- An encode in the middle of its pixels meets the invariant. -/
theorem inv_encoding : Inv (encoding 3 0x000000FF false [] [1, 2, 3]) where
  pixWf := by decide
  strWf := by decide
  errZero := by decide
  errCode := by decide
  encError := by decide
  decError := by decide
  decDone := by decide
  encRunning _ _ _ :=
    { channels := by decide, colorspace := by decide, pixLen := by decide, pxPos := by decide, phase := by decide
      outLenLow := by decide, outLenHigh := by decide, capacity := by decide, openRun := by decide
      header := by decide, entry := by decide, first := fun _ => ⟨rfl, rfl, rfl⟩, opaqueAlpha := by decide }
  decRunning _ h := absurd h (by decide)

/-- A decode in the middle of its chunks meets the invariant. -/
theorem inv_decoding : Inv (decoding 4 0xFF 70 22 [0xFD]) where
  pixWf := by decide
  strWf := by decide
  errZero := by decide
  errCode := by decide
  encError := by decide
  decError := by decide
  decDone := by decide
  encRunning _ h := absurd h (by decide)
  decRunning _ _ _ :=
    { channels := by decide, colorspace := by decide, decLen := by decide, cursorLow := by decide
      cursorHigh := by decide, remaining := by decide, phase := by decide, pixWr := by decide, capacity := by decide
      decPixLen := by decide, entry := by decide }

theorem witness_StepKeepsInv :
    (Inv (encoding 3 0x000000FF false [] [1, 2, 3]) ∧ ∃ t, step (encoding 3 0x000000FF false [] [1, 2, 3]) = .next t)
    ∧ Inv (decoding 4 0xFF 70 22 [0xFD]) ∧ ∃ t, step (decoding 4 0xFF 70 22 [0xFD]) = .next t :=
  ⟨⟨inv_encoding, ⟨_, rfl⟩⟩, inv_decoding, ⟨_, rfl⟩⟩

theorem witness_StepAlwaysAnswers :
    Inv (encoding 3 0x000000FF false [] [1, 2, 3]) ∧ Inv (decoding 4 0xFF 70 22 [0xFD])
    ∧ Inv (encStarted 0 4 0 0 (some 0)) := ⟨inv_encoding, inv_decoding, inv_of_start rfl rfl rfl rfl rfl⟩

theorem witness_EncodeTerminates :
    (encStarted 2 3 0 6 none).status = .busy ∧ (encStarted 2 3 0 6 none).op = .enc
    ∧ (encStarted 2 3 0 6 none).phase = .start := by decide

theorem witness_DecodeTerminates :
    let s := decStarted (headerBytes 2 1 3 1) 22 none
    s.status = .busy ∧ s.op = .dec ∧ s.phase = .start ∧ s.str.readBytes 4 8 = be32Bytes 2 ++ be32Bytes 1 := by decide

/-- A pixel of the LUMA kind, the chunk ending exactly where the input ends. -/
theorem witness_SelectedChunkRebuildsPixel :
    let e := encoding 4 0x646464FF false [] [60, 68, 75, 255]
    let d := decoding 4 0x646464FF 1 16 []
    let cur : Word := 0x3C444BFF
    selectChunk cur e.prev (e.idxRead (pixelHash cur)) = .luma 0 0 15 ∧ d.chunkDue ∧ d.prev = e.prev ∧ d.idx = e.idx
      ∧ d.cursor + (encode (.luma 0 0 15)).length ≤ d.decLen :=
  ⟨by decide, by decide, rfl, rfl, by decide⟩

theorem witness_EncodeMatchesReference :
    (encStarted 2 3 0 6 (some 30)).status = .busy ∧ (encStarted 2 3 0 6 (some 30)).op = .enc
    ∧ (encStarted 2 3 0 6 (some 30)).phase = .start ∧ (encStarted 2 3 0 6 (some 30)).str.wf = true := by decide

theorem witness_DecodeMatchesReference :
    let s := decStarted (headerBytes 1 1 3 1 ++ [0xC0] ++ endMarker) 23 none
    s.status = .busy ∧ s.op = .dec ∧ s.phase = .start ∧ s.pix.wf = true := by decide

/-- The capacity of the bound exactly, an old pixel in the output buffer. -/
theorem witness_EncodeThenDecodeIsLossless :
    let s := { encStarted 2 3 1 6 (some 30) with cfg := ⟨some 30, some 6⟩ }
    s.status = .busy ∧ s.op = .enc ∧ s.phase = .start ∧ s.str.wf = true ∧ Memory.wf [(0, 0x55)] = true
      ∧ (s.encChannels = 3 ∨ s.encChannels = 4) ∧ s.encColorspace.toNat ≤ 1
      ∧ s.encPixLen = s.encWidth.toNat * s.encHeight.toNat * s.encChannels.toNat
      ∧ fits s.cfg.outCap (22 + s.encWidth.toNat * s.encHeight.toNat * (s.encChannels.toNat + 1)) = true
      ∧ fits s.cfg.pixCap s.encPixLen = true := by decide

end Sys2Proof.Tests
end

/-! SUPPORT. The one inversion of a step: everything `step` can answer, with the guard of each case. -/

namespace Sys2Proof.Machine

/-! ### What the decoder accepts -/

/-- Whatever is decoded is well formed and its bytes were there: the tags leave RUN no payload 62 or 63 (R94, R97). -/
theorem wellFormed_and_length_of_decode {bs rest : List Byte} {i : Instr} (h : decode bs = .ok (i, rest)) :
    i.wellFormed = true ∧ (encode i).length ≤ bs.length := by
  cases bs with
  | nil => simp [decode] at h
  | cons b0 bs =>
    simp only [decode] at h
    split_ifs at h with hRgb hRgba hIndex hDiff hLuma
    · split at h <;> cases h
      simp [Instr.wellFormed, encode]
    · split at h <;> cases h
      simp [Instr.wellFormed, encode]
    · cases h; simp [Instr.wellFormed, encode]
    · cases h; simp [Instr.wellFormed, encode, diffOf]
    · split at h <;> cases h
      simp [Instr.wellFormed, encode]
    · cases h
      refine ⟨?_, by simp [encode]⟩
      clear rest
      revert b0; decide

/-- A fetched chunk is well formed and lies within the input (R176). -/
theorem wellFormed_and_fits_of_fetchChunk {s : State} {i : Instr} (h : s.fetchChunk = some i) :
    i.wellFormed = true ∧ s.cursor + (encode i).length ≤ s.decLen := by
  unfold State.fetchChunk at h
  split at h
  next j rest hd =>
    cases h
    obtain ⟨hw, hl⟩ := wellFormed_and_length_of_decode hd
    have hpos := (encode_length i).1
    rw [State.fetchWindow, Memory.readBytes_length] at hl
    exact ⟨hw, by omega⟩
  next => cases h

/-- A due chunk that is well formed and lies within the input takes effect over its own length, or is a RUN longer
than the pixels owed (R177 to R182). -/
theorem exec_of_fits {i : Instr} {s : State} (hd : s.chunkDue) (hw : i.wellFormed = true)
    (hf : s.cursor + (encode i).length ≤ s.decLen) :
    exec i s = .next (s.chunkError .pixelCountMismatch)
    ∨ ∃ count p, 1 ≤ count ∧ count ≤ s.remaining ∧ exec i s = .next (s.emitChunk (encode i).length count p) := by
  obtain ⟨-, -, -, howed, -⟩ := id hd
  have single (length : Nat) (p : Word) (hl : s.cursor + length ≤ s.decLen) :
      s.whenChunkDue (s.whenFits length (.next (s.emitChunk length 1 p))) = .next (s.emitChunk length 1 p) := by
    rw [State.whenChunkDue_of_due hd, State.whenFits_of_fits hl]
  cases i with
  | rgb r g b => exact .inr ⟨1, _, le_rfl, howed, single 4 _ hf⟩
  | rgba r g b a => exact .inr ⟨1, _, le_rfl, howed, single 5 _ hf⟩
  | index idx => exact .inr ⟨1, _, le_rfl, howed, State.whenChunkDue_of_due hd _⟩
  | diff fr fg fb => exact .inr ⟨1, _, le_rfl, howed, State.whenChunkDue_of_due hd _⟩
  | luma fg frg fbg => exact .inr ⟨1, _, le_rfl, howed, single 2 _ hf⟩
  | run fr =>
    have hlegal : ¬ 62 ≤ fr.toNat := by simpa [Instr.wellFormed] using hw
    simp only [exec, execRun, State.whenChunkDue_of_due hd, if_neg hlegal]
    split_ifs with hlong
    · exact .inl rfl
    · exact .inr ⟨runCount fr, s.prev, Nat.le_add_left 1 _, by omega, rfl⟩

/-! ### The step, case by case -/

/-- Everything a step from `s` can answer, each case under the guard that selects it. -/
inductive StepEffect (s : State) : State → Prop
  /-- No operation runs (log 7). -/
  | stay (halted : s.status ≠ .busy) : StepEffect s s
  /-- An error takes its effects on the state before the step (R222, R251). -/
  | raised (busy : s.status = .busy) (k : ErrorKind) (raisable : k.code ∈ raisableCodes) :
      StepEffect s (s.raiseError k s.writtenBytes)
  /-- The encoder's start step (R132). -/
  | encStarted (busy : s.status = .busy) (enc : s.op = .enc) (start : s.phase = .start) (args : s.encArgsOk = true)
      (room : fits s.cfg.outCap 14 = true) :
      StepEffect s ((s.encInit.appended
        (headerBytes s.encWidth s.encHeight s.encChannels s.encColorspace)).setPhase (s.encPhase 0))
  /-- A pixel step that raises the open run's tail byte (R139). -/
  | runExtended (due : s.pixelDue) (same : s.nextPixel = s.prev) (isOpen : s.runOpen = true)
      (notFull : s.tailByte ≠ 0xFD) : StepEffect s s.fetchPixel.raiseTail.finishPixel
  /-- A pixel step that appends 0xC0 (R138, R140). -/
  | runAppended (due : s.pixelDue) (same : s.nextPixel = s.prev) (full : s.runOpen = true → s.tailByte = 0xFD)
      (room : fits s.cfg.outCap (s.outLen + 1) = true) :
      StepEffect s ((s.fetchPixel.setRunOpen true).appended [0xC0]).finishPixel
  /-- A pixel step that closes the run and appends the selected chunk (R141 to R146). -/
  | chunkAppended (due : s.pixelDue) (differs : s.nextPixel ≠ s.prev) (bs : List Byte)
      (selected : bs = encode (selectChunk s.nextPixel s.prev (s.idxRead (pixelHash s.nextPixel))))
      (room : fits s.cfg.outCap (s.outLen + bs.length) = true) :
      StepEffect s ((s.fetchPixel.setRunOpen false).appended bs).finishPixel
  /-- The encoder's end step (R147). -/
  | encFinished (busy : s.status = .busy) (enc : s.op = .enc) (fin : s.phase = .fin)
      (room : fits s.cfg.outCap (s.outLen + 8) = true) : StepEffect s (s.appended endMarker).finishEncode
  /-- The decoder's start step (R175). -/
  | decStarted (busy : s.status = .busy) (dec : s.op = .dec) (start : s.phase = .start)
      (header : s.decHeaderError = none) : StepEffect s s.decParse.decInit
  /-- A chunk step, the chunk within the input and the pixels owed (R183). -/
  | chunkRun (due : s.chunkDue) (length count : Nat) (p : Word) (lengthPos : 1 ≤ length) (countPos : 1 ≤ count)
      (within : s.cursor + length ≤ s.decLen) (owed : count ≤ s.remaining) :
      StepEffect s (s.emitChunk length count p)
  /-- The decoder's end step (R184). -/
  | decFinished (busy : s.status = .busy) (dec : s.op = .dec) (fin : s.phase = .fin)
      (accepted : s.decStrict = true → s.strictEndOk = true) : StepEffect s s.finishDecode

/-- Nothing is written before the start step (R222). -/
theorem writtenBytes_of_start {s : State} (hp : s.phase = .start) : s.writtenBytes = 0 := by
  simp only [State.writtenBytes, hp]

theorem writtenBytes_of_enc {s : State} (ho : s.op = .enc) (hp : s.phase ≠ .start) : s.writtenBytes = s.outLen := by
  cases h : s.phase <;> simp_all [State.writtenBytes]

theorem writtenBytes_of_dec {s : State} (ho : s.op = .dec) (hp : s.phase ≠ .start) : s.writtenBytes = s.pixWr := by
  cases h : s.phase <;> simp_all [State.writtenBytes]

/-- `StepEffect.raised` with the number of written bytes as a step function names it. -/
theorem StepEffect.raised_of_written {s : State} (busy : s.status = .busy) {k : ErrorKind} {n : Nat}
    (raisable : k.code ∈ raisableCodes) (hn : s.writtenBytes = n) : StepEffect s (s.raiseError k n) :=
  hn ▸ .raised busy k raisable

/-- Every error of the decoder's header checks has a raisable code (R171 to R175). -/
theorem raisable_of_decHeaderError {s : State} {k : ErrorKind} (h : s.decHeaderError = some k) :
    k.code ∈ raisableCodes := by
  unfold State.decHeaderError at h
  split_ifs at h <;> cases h <;> decide

theorem encStart_effect {s : State} (hb : s.status = .busy) (ho : s.op = .enc) (hp : s.phase = .start) :
    StepEffect s (encStart s) := by
  have hn := writtenBytes_of_start hp
  cases ha : s.encArgsOk with
  | false => rw [encStart_of_bad ha]; exact .raised_of_written hb (by decide) hn
  | true =>
    rcases encStart_of_ok ha with ⟨hf, e⟩ | ⟨-, e⟩ <;> rw [e]
    · exact .encStarted hb ho hp ha hf
    · exact .raised_of_written hb (by decide) hn

theorem encPixel_effect {s : State} (hd : s.pixelDue) : StepEffect s (encPixel s) := by
  obtain ⟨hb, ho, hp, -⟩ := id hd
  rcases encPixel_cases s with e | ⟨hsame, hopen, hfull, e⟩ | ⟨bs, b, hf, e, h⟩ <;> rw [e]
  · exact .raised_of_written hb (by decide) (writtenBytes_of_enc ho (by simp [hp]))
  · exact .runExtended hd hsame hopen hfull
  · rcases h with ⟨hsame, hfull, rfl, rfl⟩ | ⟨hne, rfl, hbs⟩
    · exact .runAppended hd hsame hfull hf
    · exact .chunkAppended hd hne bs hbs hf

theorem encEnd_effect {s : State} (hb : s.status = .busy) (ho : s.op = .enc) (hp : s.phase = .fin) :
    StepEffect s (encEnd s) := by
  rcases encEnd_cases s with ⟨hf, e⟩ | ⟨-, e⟩ <;> rw [e]
  · exact .encFinished hb ho hp hf
  · exact .raised_of_written hb (by decide) (writtenBytes_of_enc ho (by simp [hp]))

theorem decStart_effect {s : State} (hb : s.status = .busy) (ho : s.op = .dec) (hp : s.phase = .start) :
    StepEffect s (decStart s) := by
  cases hh : s.decHeaderError with
  | none => rw [decStart_of_ok hh]; exact .decStarted hb ho hp hh
  | some k =>
    rw [decStart_of_error hh]
    exact .raised_of_written hb (raisable_of_decHeaderError hh) (writtenBytes_of_start hp)

theorem decBody_effect {s t : State} (hb : s.status = .busy) (ho : s.op = .dec) (hp : s.phase = .body)
    (h : decBody s = .next t) : StepEffect s t := by
  have hn : s.writtenBytes = s.pixWr := writtenBytes_of_dec ho (by simp [hp])
  unfold decBody at h
  cases hc : s.fetchChunk with
  | none =>
    rw [hc] at h; cases h
    exact .raised_of_written hb (by decide) hn
  | some i =>
    rw [hc] at h
    have hx : exec i s = .next t := h
    by_cases hd : s.chunkDue
    · obtain ⟨hw, hf⟩ := wellFormed_and_fits_of_fetchChunk hc
      rcases exec_of_fits hd hw hf with e | ⟨count, p, hpos, howed, e⟩ <;> rw [e] at hx <;> cases hx
      · exact .raised_of_written hb (by decide) hn
      · exact .chunkRun hd _ count p (encode_length i).1 hpos hf howed
    · rw [exec_of_not_due i hd] at hx; cases hx

theorem decEnd_effect {s : State} (hb : s.status = .busy) (ho : s.op = .dec) (hp : s.phase = .fin) :
    StepEffect s (decEnd s) := by
  unfold decEnd
  split_ifs with h
  · exact .raised_of_written hb (by decide) (writtenBytes_of_dec ho (by simp [hp]))
  · exact .decFinished hb ho hp fun hs => by simpa [hs] using h

/-- Whatever a step answers is one of the cases. -/
theorem step_effect {s t : State} (h : step s = .next t) : StepEffect s t := by
  by_cases hb : s.status = .busy
  · cases ho : s.op <;> cases hp : s.phase
    · rw [step_encStart hb ho hp] at h; cases h; exact encStart_effect hb ho hp
    · rw [step_encBody hb ho hp, encBody] at h
      split_ifs at h with hd
      cases h; exact encPixel_effect hd
    · rw [step_encEnd hb ho hp] at h; cases h; exact encEnd_effect hb ho hp
    · rw [step_decStart hb ho hp] at h; cases h; exact decStart_effect hb ho hp
    · rw [step_decBody hb ho hp] at h; exact decBody_effect hb ho hp h
    · rw [step_decEnd hb ho hp] at h; cases h; exact decEnd_effect hb ho hp
  · rw [step_of_halted hb] at h; cases h; exact .stay hb

end Sys2Proof.Machine

/-! SUPPORT. The host's accesses, the frames of a step, and what a step does to the encoder's output. -/

namespace Sys2Proof.Machine

/-! ### Host accesses -/

theorem whenNotBusy_of_halted {α : Type} {s : State} (h : s.status ≠ .busy)
    (r : Host.Outcome α Fault Refusal) : s.whenNotBusy r = r := if_neg h

theorem whenNotBusy_of_busy {α : Type} {s : State} (h : s.status = .busy)
    (r : Host.Outcome α Fault Refusal) : s.whenNotBusy r = .refused .hostAccessWhileBusy := if_pos h

/-- An access that is answered was made outside BUSY. -/
theorem of_whenNotBusy_eq_next {α : Type} {s : State} {x y : α} (h : s.whenNotBusy (.next x) = .next y) :
    s.status ≠ .busy ∧ x = y := by
  by_cases hb : s.status = .busy
  · rw [whenNotBusy_of_busy hb] at h; cases h
  · rw [whenNotBusy_of_halted hb] at h; cases h; exact ⟨hb, rfl⟩

theorem writeCmd_of_halted {s : State} (h : s.status ≠ .busy) (c : Command) :
    s.writeCmd c = s.started c.engine := if_neg h

theorem writeCmd_of_busy {s : State} (h : s.status = .busy) (c : Command) : s.writeCmd c = s := if_pos h

/-- While BUSY every host write but a command and the reset line is refused (R66, R249; log 9). -/
theorem hostMove_of_busy {s : State} (h : s.status = .busy) {m : HostMove} (hc : ∀ c, m ≠ .command c)
    (hr : m ≠ .hardwareReset) : hostMove m s = .refused .hostAccessWhileBusy := by
  cases m with
  | command c => exact absurd rfl (hc c)
  | hardwareReset => exact absurd rfl hr
  | _ => exact whenNotBusy_of_busy h _

/-- While BUSY every host read but that of STATUS, ERR and CMD is refused (R37, R66; log 9). -/
theorem hostRead_of_busy {s : State} (h : s.status = .busy) {r : HostReg} (hs : r ≠ .status) (he : r ≠ .err)
    (hc : r ≠ .cmd) : hostRead r s = .refused .hostAccessWhileBusy := by
  cases r with
  | status => exact absurd rfl hs
  | err => exact absurd rfl he
  | cmd => exact absurd rfl hc
  | _ => exact whenNotBusy_of_busy h _

/-- Settles O28. -/
theorem haltedBlockStays : Obligations.HaltedBlockStays := fun _ h => step_of_halted h

/-- Settles O29, from the two cases of a write of CMD. -/
theorem startCommandEffect : Obligations.StartCommandEffect := by
  refine fun c s => ⟨fun h => ⟨s.started c.engine, ?_, rfl, rfl, rfl, ?_, rfl⟩, fun h => ?_⟩
  · exact congrArg Host.Outcome.next (writeCmd_of_halted h c)
  · cases c <;> rfl
  · exact congrArg Host.Outcome.next (writeCmd_of_busy h c)

/-- Settles O30: the refusals while BUSY, and the rules of a byte written to PIX or STR. -/
theorem hostOwnsBuffersOnlyWhenNotBusy : Obligations.HostOwnsBuffersOnlyWhenNotBusy := by
  refine fun a b s => ⟨fun h => ⟨fun m => hostMove_of_busy h, fun r => hostRead_of_busy h⟩,
    fun h hp hs => ⟨⟨_, whenNotBusy_of_halted h _, ?_, ?_, rfl⟩, ⟨_, whenNotBusy_of_halted h _, ?_, ?_, rfl⟩,
      whenNotBusy_of_halted h _, whenNotBusy_of_halted h _⟩, rfl, rfl⟩
  · exact Memory.read_write_same a b hp
  · exact fun _ hx => Memory.read_write_ne s.pix b hx
  · exact Memory.read_write_same a b hs
  · exact fun _ hx => Memory.read_write_ne s.str b hx

/-- Settles O59: outside BUSY no access is refused, and CMD is read at any time. -/
theorem hostWritesParametersAndReadsResults : Obligations.HostWritesParametersAndReadsResults := by
  intro s h
  have answered {α : Type} (r : Host.Outcome α Fault Refusal) : s.whenNotBusy r = r := whenNotBusy_of_halted h r
  exact ⟨fun _ => answered _, fun _ => answered _, fun _ => answered _, fun _ => answered _, fun _ => answered _,
    fun _ => answered _, fun _ => answered _, answered _, answered _, answered _, answered _, answered _, answered _,
    _, rfl⟩

/-! ### Frames of a step -/

/-- An encode's error leaves PIX and the decoder's result registers (R222). -/
theorem raiseError_of_enc {s : State} (ho : s.op = .enc) (k : ErrorKind) (n : Nat) :
    (s.raiseError k n).pix = s.pix ∧ SameDecResults s (s.raiseError k n) := by
  have hne : ¬ s.op = .dec := by simp [ho]
  exact ⟨if_neg hne, if_neg hne, if_neg hne, if_neg hne, if_neg hne, if_neg hne⟩

/-- A decode's error leaves STR and ENC_OUT_LEN (R222). -/
theorem raiseError_of_dec {s : State} (ho : s.op = .dec) (k : ErrorKind) (n : Nat) :
    (s.raiseError k n).str = s.str ∧ (s.raiseError k n).encOutLen = s.encOutLen := by
  have hne : ¬ s.op = .enc := by simp [ho]
  exact ⟨if_neg hne, if_neg hne⟩

theorem StepEffect.sameParameters {s t : State} (h : StepEffect s t) : SameParameters s t := by
  cases h <;> exact ⟨rfl, rfl, rfl, rfl, rfl, rfl, rfl, rfl⟩

/-- `op` is kept, also where the operation ends (log 15). -/
theorem StepEffect.op {s t : State} (h : StepEffect s t) : t.op = s.op := by cases h <;> rfl

/-- A decode's step leaves the encoder's space (R54). -/
theorem StepEffect.of_dec {s t : State} (h : StepEffect s t) (ho : s.op = .dec) :
    t.str = s.str ∧ t.encOutLen = s.encOutLen := by
  have hne : s.op ≠ .enc := by simp [ho]
  cases h with
  | raised _ k _ => exact raiseError_of_dec ho k _
  | encStarted _ enc => exact absurd enc hne
  | runExtended due => exact absurd due.2.1 hne
  | runAppended due => exact absurd due.2.1 hne
  | chunkAppended due => exact absurd due.2.1 hne
  | encFinished _ enc => exact absurd enc hne
  | stay | decStarted | chunkRun | decFinished => exact ⟨rfl, rfl⟩

/-- An encode's step leaves the decoder's space (R54). -/
theorem StepEffect.of_enc {s t : State} (h : StepEffect s t) (ho : s.op = .enc) :
    t.pix = s.pix ∧ SameDecResults s t := by
  have hne : s.op ≠ .dec := by simp [ho]
  cases h with
  | raised _ k _ => exact raiseError_of_enc ho k _
  | decStarted _ dec => exact absurd dec hne
  | chunkRun due => exact absurd due.2.1 hne
  | decFinished _ dec => exact absurd dec hne
  | stay | encStarted | runExtended | runAppended | chunkAppended | encFinished =>
    exact ⟨rfl, rfl, rfl, rfl, rfl, rfl⟩

/-- Settles O50, from the frames of the step's cases. -/
theorem stepsStayInTheirSpaces : Obligations.StepsStayInTheirSpaces := fun _ _ h =>
  have e := step_effect h
  ⟨e.sameParameters, e.op, e.of_dec, e.of_enc⟩

/-! ### The encoder's output -/

/-- STR and `out_len` of `t` extend those of `s`: only an open run's tail byte is rewritten (R25, R250). -/
structure OutputExtends (s t : State) : Prop where
  outLen : s.outLen ≤ t.outLen
  belowTail : ∀ a, a + 1 < s.outLen → t.str.read a = s.str.read a
  closed : s.runOpen = false → ∀ a, a < s.outLen → t.str.read a = s.str.read a

/-- Bytes written from `out_len` up extend the output. -/
theorem outputExtends_of_append {s t : State} {bs : List Byte} (hl : t.outLen = s.outLen + bs.length)
    (hs : t.str = s.str.writeBytes s.outLen bs) : OutputExtends s t := by
  have key (a : Nat) (ha : a < s.outLen) : t.str.read a = s.str.read a := by
    rw [hs, Memory.read_writeBytes_outside _ _ (.inl ha)]
  exact ⟨by omega, fun a ha => key a (by omega), fun _ => key⟩

/-- Raising an open run's tail byte extends the output (R139). -/
theorem outputExtends_raiseTail {s : State} (hopen : s.runOpen = true) :
    OutputExtends s s.fetchPixel.raiseTail.finishPixel where
  outLen := le_rfl
  belowTail a ha := Memory.read_write_ne s.str _ (show a ≠ s.outLen - 1 by omega)
  closed hclosed := by simp [hopen] at hclosed

/-- Past the start step and without an error an encode's output only grows. -/
theorem StepEffect.outputExtends {s t : State} (h : StepEffect s t) (ho : s.op = .enc) (hp : s.phase ≠ .start)
    (hs : t.status ≠ .error) : OutputExtends s t := by
  have hne : s.op ≠ .dec := by simp [ho]
  cases h with
  | stay => exact ⟨le_rfl, fun _ _ => rfl, fun _ _ _ => rfl⟩
  | raised => exact absurd rfl hs
  | encStarted _ _ start => exact absurd start hp
  | runExtended _ _ isOpen => exact outputExtends_raiseTail isOpen
  | runAppended => exact outputExtends_of_append (bs := [0xC0]) rfl rfl
  | chunkAppended _ _ bs => exact outputExtends_of_append (bs := bs) rfl rfl
  | encFinished => exact outputExtends_of_append (bs := endMarker) rfl rfl
  | decStarted _ dec => exact absurd dec hne
  | chunkRun due => exact absurd due.2.1 hne
  | decFinished _ dec => exact absurd dec hne

/-- Settles O45, from the step's cases. -/
theorem encoderOutputPrefixIsFinal : Obligations.EncoderOutputPrefixIsFinal := fun _ _ _ ho hp h hs =>
  have e := (step_effect h).outputExtends ho hp hs
  ⟨e.outLen, e.belowTail, e.closed⟩

end Sys2Proof.Machine

/-! SUPPORT. The invariant: how each case of a step and each move of the host keeps it. -/

namespace Sys2Proof.Machine

/-! ### The frame of a pixel step -/

/-- A pixel step has one effect outside STR, `out_len` and the flag, whatever the emission did to those (R135). -/
theorem pixelEffect_finishPixel (s : State) (b : Bool) (m : Memory) (n : Nat) :
    PixelEffect s ({ s with cur := s.nextPixel, runOpen := b, str := m, outLen := n } : State).finishPixel
      s.nextPixel b where
  cur := rfl
  updated := updatedWith_of_update rfl rfl
  runOpen := rfl
  pxPos := rfl
  phase := rfl
  pix _ := rfl
  status := rfl
  err := rfl
  op := rfl
  parameters := ⟨rfl, rfl, rfl, rfl, rfl, rfl, rfl, rfl⟩
  results := ⟨rfl, rfl, rfl, rfl, rfl⟩
  encOutLen := rfl
  cursor := rfl
  remaining := rfl
  pixWr := rfl
  freeTick := rfl

theorem pixelEffect_runExtended {s : State} (hopen : s.runOpen = true) :
    PixelEffect s s.fetchPixel.raiseTail.finishPixel s.nextPixel true :=
  hopen ▸ pixelEffect_finishPixel s s.runOpen _ s.outLen

theorem pixelEffect_appended (s : State) (b : Bool) (bs : List Byte) :
    PixelEffect s ((s.fetchPixel.setRunOpen b).appended bs).finishPixel s.nextPixel b :=
  pixelEffect_finishPixel s b _ _

theorem SameParameters.encPixels {s t : State} (h : SameParameters s t) : t.encPixels = s.encPixels := by
  simp only [State.encPixels, h.encWidth, h.encHeight]

theorem SameDecResults.decPixels {s t : State} (h : SameDecResults s t) : t.decPixels = s.decPixels := by
  simp only [State.decPixels, h.decWidth, h.decHeight]

theorem SameDecResults.decBytes {s t : State} (h : SameDecResults s t) : t.decBytes = s.decBytes := by
  simp only [State.decBytes, h.decPixels, h.decChannels]

/-- The choice of the next phase, in either engine (R130, R170). -/
theorem body_or_fin_eq_body_iff (c : Prop) [Decidable c] : (if c then Phase.body else Phase.fin) = .body ↔ c := by
  by_cases h : c <;> simp [h]

/-! ### A running encode -/

/-- The header stays under the emitted chunks: an open run's tail byte lies past it (R30, R81). -/
theorem EncRunning.header_of_extends {s t : State} (h : EncRunning s) (e : OutputExtends s t) :
    t.str.readBytes 0 14 = s.str.readBytes 0 14 := by
  refine Memory.readBytes_congr fun a ha => ?_
  have hlow := h.outLenLow
  cases hopen : s.runOpen with
  | true => exact e.belowTail _ (by have := (h.openRun hopen).1; omega)
  | false => exact e.closed hopen _ (by omega)

/-- Three-channel mode stays opaque through an update with an opaque pixel (R150). -/
theorem UpdatedWith.opaqueAlpha {s t : State} {p : Word} (u : UpdatedWith s t p) (hp : alpha p = 255)
    (h : ∀ i, s.idxRead i = 0 ∨ alpha (s.idxRead i) = 255) :
    alpha t.prev = 255 ∧ ∀ i, t.idxRead i = 0 ∨ alpha (t.idxRead i) = 255 := by
  refine ⟨by rw [u.prev, hp], fun i => ?_⟩
  by_cases hi : i = pixelHash p
  · exact .inr (by rw [hi, u.entry, hp])
  · rw [u.otherEntries i hi]; exact h i

/-- A pixel step keeps the working state of an encode, once the bytes it emits are known to be few enough, to fit, and
to end in a RUN where the run stays open. -/
theorem EncRunning.of_pixelEffect {s t : State} {b : Bool} (h : EncRunning s) (hdue : s.pixelDue)
    (e : PixelEffect s t s.nextPixel b) (out : OutputExtends s t)
    (few : t.outLen ≤ s.outLen + (s.encChannels.toNat + 1)) (room : fits s.cfg.outCap t.outLen = true)
    (tail : b = true → 15 ≤ t.outLen ∧ 0xC0 ≤ t.tailByte.toNat ∧ t.tailByte.toNat ≤ 0xFD) : EncRunning t := by
  obtain ⟨-, -, -, hpos, -⟩ := hdue
  obtain ⟨hcfg, hw, hh, hch, hcs, hlen, -, -⟩ := id e.parameters
  have hpx : t.encPixels = s.encPixels := e.parameters.encPixels
  constructor
  case channels => rw [hch]; exact h.channels
  case colorspace => rw [hcs]; exact h.colorspace
  case pixLen => rw [hlen, hpx, hch]; exact h.pixLen
  case pxPos => rw [hpx, e.pxPos]; exact hpos
  case phase => rw [e.phase, hpx, e.pxPos]; exact body_or_fin_eq_body_iff _
  case outLenLow => exact h.outLenLow.trans out.outLen
  case outLenHigh =>
    have := h.outLenHigh
    rw [hch, e.pxPos, Nat.succ_mul]; omega
  case capacity => rw [hcfg]; exact room
  case openRun => rw [e.runOpen]; exact tail
  case header => rw [h.header_of_extends out, h.header, hw, hh, hch, hcs]
  case entry => exact fun _ => by rw [e.updated.prev, e.updated.entry]
  case first => exact fun h0 => by rw [e.pxPos] at h0; cases h0
  case opaqueAlpha =>
    intro h3
    rw [hch] at h3
    exact e.updated.opaqueAlpha (alpha_nextPixel h3) (h.opaqueAlpha h3).2

/-- Run extension: the tail byte was a RUN below the largest, so it is one after (R139). -/
theorem EncRunning.runExtended {s : State} (h : EncRunning s) (hw : s.str.wf = true) (hdue : s.pixelDue)
    (hopen : s.runOpen = true) (hfull : s.tailByte ≠ 0xFD) : EncRunning s.fetchPixel.raiseTail.finishPixel := by
  obtain ⟨hlow, hC0, hFD⟩ := h.openRun hopen
  have hlt : s.tailByte.toNat < 0xFD := lt_of_le_of_ne hFD fun e => hfull (BitVec.eq_of_toNat_eq e)
  have htail : (s.fetchPixel.raiseTail.finishPixel).tailByte = s.tailByte + 1 := Memory.read_write_same _ _ hw
  refine h.of_pixelEffect hdue (pixelEffect_runExtended hopen) (outputExtends_raiseTail hopen)
    (Nat.le_add_right _ _) h.capacity fun _ => ⟨hlow, ?_⟩
  rw [htail, BitVec.toNat_add, show (1 : Byte).toNat = 1 from rfl]
  omega

/-- The byte 0xC0 appended is a RUN chunk and the new tail byte (R138, R140). -/
theorem EncRunning.runAppended {s : State} (h : EncRunning s) (hw : s.str.wf = true) (hdue : s.pixelDue)
    (room : fits s.cfg.outCap (s.outLen + 1) = true) :
    EncRunning ((s.fetchPixel.setRunOpen true).appended [0xC0]).finishPixel := by
  have htail : (((s.fetchPixel.setRunOpen true).appended [0xC0]).finishPixel).tailByte = 0xC0 :=
    Memory.read_write_same _ _ hw
  refine h.of_pixelEffect hdue (pixelEffect_appended s true [0xC0]) (outputExtends_of_append (bs := [0xC0]) rfl rfl)
    (Nat.add_le_add_left (Nat.le_add_left 1 _) _) room fun _ => ⟨?_, ?_⟩
  · exact Nat.succ_le_succ h.outLenLow
  · rw [htail]; decide

/-- A selected chunk has at most `c + 1` bytes (R151): with 3 channels alpha never changes, so RGBA is not selected. -/
theorem EncRunning.selected_length {s : State} (h : EncRunning s) :
    (encode (selectChunk s.nextPixel s.prev (s.idxRead (pixelHash s.nextPixel)))).length
      ≤ s.encChannels.toNat + 1 := by
  obtain ⟨h5, h4⟩ := selectChunk_length s.nextPixel s.prev (s.idxRead (pixelHash s.nextPixel))
  rcases h.channels with hc | hc
  · rw [hc]
    exact h4 (by rw [alpha_nextPixel hc, (h.opaqueAlpha hc).1])
  · rw [hc]; exact h5

theorem EncRunning.chunkAppended {s : State} (h : EncRunning s) (hdue : s.pixelDue) {bs : List Byte}
    (hbs : bs = encode (selectChunk s.nextPixel s.prev (s.idxRead (pixelHash s.nextPixel))))
    (room : fits s.cfg.outCap (s.outLen + bs.length) = true) :
    EncRunning ((s.fetchPixel.setRunOpen false).appended bs).finishPixel := by
  refine h.of_pixelEffect hdue (pixelEffect_appended s false bs) (outputExtends_of_append rfl rfl)
    (Nat.add_le_add_left ?_ _) room (fun hb => by cases hb)
  rw [hbs]; exact h.selected_length

@[simp] theorem headerBytes_length (w h : Word) (c cs : Byte) : (headerBytes w h c cs).length = 14 := rfl

/-- The start step of an encode sets up its working state (R132). -/
theorem encRunning_encStarted {s : State} (hw : s.str.wf = true) (args : s.encArgsOk = true)
    (room : fits s.cfg.outCap 14 = true) :
    EncRunning ((s.encInit.appended
      (headerBytes s.encWidth s.encHeight s.encChannels s.encColorspace)).setPhase (s.encPhase 0)) := by
  obtain ⟨hch, hcs, hlen⟩ := (encArgsOk_iff s).1 args
  constructor
  case channels => exact hch
  case colorspace => exact hcs
  case pixLen => exact hlen
  case pxPos => exact Nat.zero_le _
  case phase => exact body_or_fin_eq_body_iff _
  case outLenLow => exact le_rfl
  case outLenHigh => exact Nat.le_add_right 14 _
  case capacity => exact room
  case openRun => exact fun h => by cases h
  case header =>
    simpa using Memory.readBytes_writeBytes 0 (headerBytes s.encWidth s.encHeight s.encChannels s.encColorspace) hw
  case entry => exact fun h => absurd h (Nat.lt_irrefl 0)
  case first => exact fun _ => ⟨rfl, rfl, rfl⟩
  case opaqueAlpha => exact fun _ => ⟨(by decide : alpha initialPrev = 255), fun i => .inl (idxRead_of_cleared rfl i)⟩

/-! ### A running decode -/

/-- A chunk step keeps the working state of a decode (R183). -/
theorem DecRunning.of_chunkEffect {s t : State} {length count : Nat} {p : Word} (h : DecRunning s)
    (e : ChunkEffect s t length count p) (within : s.cursor + length ≤ s.decLen) : DecRunning t := by
  obtain ⟨hcfg, -, -, -, -, -, hlen, -⟩ := id e.parameters
  obtain ⟨-, -, hch, hcs, hpl⟩ := id e.results
  have hpx : t.decPixels = s.decPixels := e.results.decPixels
  have hrem := e.remaining
  have hle := h.remaining
  constructor
  case channels => rw [hch]; exact h.channels
  case colorspace => rw [hcs]; exact h.colorspace
  case decLen => rw [hlen]; exact h.decLen
  case cursorLow => rw [e.cursor]; exact h.cursorLow.trans (Nat.le_add_right _ _)
  case cursorHigh => rw [e.cursor, hlen]; exact within
  case remaining => omega
  case phase => rw [e.phase]; exact body_or_fin_eq_body_iff _
  case pixWr =>
    rw [e.pixWr, h.pixWr, hpx, hch, ← Nat.add_mul]
    congr 1; omega
  case capacity => rw [hcfg, e.results.decBytes]; exact h.capacity
  case decPixLen => rw [hpl]; exact h.decPixLen
  case entry => exact fun _ => by rw [e.updated.prev, e.updated.entry]

/-- The start step of a decode sets up its working state (R175). -/
theorem decRunning_decStarted {s : State} (header : s.decHeaderError = none) : DecRunning s.decParse.decInit := by
  obtain ⟨hlen, -, hcs, hch, hfit⟩ := of_decHeaderError_none header
  constructor
  case channels => exact hch
  case colorspace => exact hcs
  case decLen => exact hlen
  case cursorLow => exact le_rfl
  case cursorHigh => exact (by decide : 14 ≤ 22).trans hlen
  case remaining => exact le_rfl
  case phase => exact body_or_fin_eq_body_iff _
  case pixWr =>
    show 0 = (s.decParse.decPixels - s.decParse.decPixels) * _
    rw [Nat.sub_self, Nat.zero_mul]
  case capacity => exact hfit
  case decPixLen => rfl
  case entry => exact fun h => absurd h (Nat.lt_irrefl _)

/-- With no pixels owed the whole image has been written (R187 (1)). -/
theorem DecRunning.pixWr_of_fin {s : State} (h : DecRunning s) (hp : s.phase = .fin) : s.pixWr = s.decBytes := by
  have hrem : s.remaining = 0 := by
    have := h.phase
    simp only [hp] at this
    simpa using this
  rw [h.pixWr, hrem, Nat.sub_zero]; rfl

/-! ### The invariant by STATUS -/

/-- The invariant of a BUSY state. -/
theorem inv_of_busy {s : State} (hp : s.pix.wf = true) (hs : s.str.wf = true) (hb : s.status = .busy)
    (he : s.err = 0) (enc : s.op = .enc → s.phase ≠ .start → EncRunning s)
    (dec : s.op = .dec → s.phase ≠ .start → DecRunning s) : Inv s where
  pixWf := hp
  strWf := hs
  errZero _ := he
  errCode h := by simp [hb] at h
  encError h := by simp [hb] at h
  decError h := by simp [hb] at h
  decDone h := by simp [hb] at h
  encRunning _ := enc
  decRunning _ := dec

theorem inv_of_encRunning {s : State} (hp : s.pix.wf = true) (hs : s.str.wf = true) (hb : s.status = .busy)
    (he : s.err = 0) (ho : s.op = .enc) (h : EncRunning s) : Inv s :=
  inv_of_busy hp hs hb he (fun _ _ => h) fun hd => by simp [ho] at hd

theorem inv_of_decRunning {s : State} (hp : s.pix.wf = true) (hs : s.str.wf = true) (hb : s.status = .busy)
    (he : s.err = 0) (ho : s.op = .dec) (h : DecRunning s) : Inv s :=
  inv_of_busy hp hs hb he (fun hd => by simp [ho] at hd) fun _ _ => h

/-- The invariant of a DONE state. -/
theorem inv_of_done {s : State} (hp : s.pix.wf = true) (hs : s.str.wf = true) (hd : s.status = .done)
    (he : s.err = 0) (dec : s.op = .dec →
      (s.decChannels = 3 ∨ s.decChannels = 4) ∧ s.decColorspace.toNat ≤ 1 ∧ s.decPixLen = s.decBytes) : Inv s where
  pixWf := hp
  strWf := hs
  errZero _ := he
  errCode h := by simp [hd] at h
  encError h := by simp [hd] at h
  decError h := by simp [hd] at h
  decDone _ := dec
  encRunning h := by simp [hd] at h
  decRunning h := by simp [hd] at h

/-- An error with a raisable code leaves no partial results (R34, R37, R222). -/
theorem inv_raiseError {s : State} (hp : s.pix.wf = true) (hs : s.str.wf = true) {k : ErrorKind} (n : Nat)
    (hk : k.code ∈ raisableCodes) : Inv (s.raiseError k n) where
  pixWf := by
    rw [State.raiseError_pix]; split_ifs
    · exact Memory.scrub_wf _ _ hp
    · exact hp
  strWf := by
    rw [State.raiseError_str]; split_ifs
    · exact Memory.scrub_wf _ _ hs
    · exact hs
  errZero h := absurd rfl h
  errCode _ := hk
  encError _ ho := if_pos ho
  decError _ ho := ⟨if_pos ho, if_pos ho, if_pos ho, if_pos ho, if_pos ho⟩
  decDone h := by cases h
  encRunning h := by cases h
  decRunning h := by cases h

/-- Outside BUSY the parameters and the bytes of canonical buffers are free. -/
theorem Inv.of_halted {s t : State} (h : Inv s) (halted : s.status ≠ .busy) (hp : t.pix.wf = true)
    (hs : t.str.wf = true) (status : t.status = s.status) (err : t.err = s.err) (op : t.op = s.op)
    (encOutLen : t.encOutLen = s.encOutLen) (results : SameDecResults s t) : Inv t where
  pixWf := hp
  strWf := hs
  errZero := by rw [status, err]; exact h.errZero
  errCode := by rw [status, err]; exact h.errCode
  encError := by rw [status, op, encOutLen]; exact h.encError
  decError := by
    rw [status, op, results.decWidth, results.decHeight, results.decChannels, results.decColorspace,
      results.decPixLen]
    exact h.decError
  decDone := by
    rw [status, op, results.decChannels, results.decColorspace, results.decPixLen, results.decBytes]
    exact h.decDone
  encRunning hb := absurd (status ▸ hb) halted
  decRunning hb := absurd (status ▸ hb) halted

/-- An append keeps the canonical form of STR. -/
theorem appended_strWf {s : State} (bs : List Byte) (h : s.str.wf = true) : (s.appended bs).str.wf = true :=
  Memory.writeBytes_wf s.outLen bs h

/-! ### Steps and host moves keep the invariant -/

theorem StepEffect.keeps_inv {s t : State} (h : StepEffect s t) (hI : Inv s) : Inv t := by
  have hp := hI.pixWf
  have hs := hI.strWf
  have err (hb : s.status = .busy) : s.err = 0 := hI.errZero (by simp [hb])
  have pixel (due : s.pixelDue) : s.status = .busy ∧ s.op = .enc ∧ s.err = 0 ∧ EncRunning s := by
    obtain ⟨busy, isEnc, body, -⟩ := due
    exact ⟨busy, isEnc, err busy, hI.encRunning busy isEnc (by simp [body])⟩
  cases h with
  | stay => exact hI
  | raised _ k raisable => exact inv_raiseError hp hs _ raisable
  | encStarted busy isEnc _ args room =>
    refine inv_of_encRunning hp ?_ busy (err busy) isEnc (encRunning_encStarted hs args room)
    rw [State.setPhase_str]
    exact appended_strWf (s := s.encInit) _ hs
  | runExtended due _ isOpen notFull =>
    obtain ⟨busy, isEnc, err, run⟩ := pixel due
    exact inv_of_encRunning hp (Memory.write_wf _ _ hs) busy err isEnc (run.runExtended hs due isOpen notFull)
  | runAppended due _ _ room =>
    obtain ⟨busy, isEnc, err, run⟩ := pixel due
    exact inv_of_encRunning hp (appended_strWf _ hs) busy err isEnc (run.runAppended hs due room)
  | chunkAppended due _ bs selected room =>
    obtain ⟨busy, isEnc, err, run⟩ := pixel due
    exact inv_of_encRunning hp (appended_strWf _ hs) busy err isEnc (run.chunkAppended due selected room)
  | encFinished busy isEnc =>
    refine inv_of_done hp (appended_strWf _ hs) rfl (err busy) fun hd => ?_
    exact absurd (isEnc.symm.trans hd) (by decide)
  | decStarted busy isDec _ header =>
    exact inv_of_decRunning hp hs busy (err busy) isDec (decRunning_decStarted header)
  | chunkRun due length count p _ _ within owed =>
    obtain ⟨busy, isDec, body, -⟩ := id due
    have run : DecRunning s := hI.decRunning busy isDec (by simp [body])
    exact inv_of_decRunning (storePixels_wf _ _ _ _ hp) hs busy (err busy) isDec
      (run.of_chunkEffect (emitChunk_effect due hp p owed) within)
  | decFinished busy isDec fin =>
    have run : DecRunning s := hI.decRunning busy isDec (by simp [fin])
    exact inv_of_done hp hs rfl (err busy) fun _ => ⟨run.channels, run.colorspace, run.pixWr_of_fin fin⟩

/-- Settles O51, from the step's cases. -/
theorem stepKeepsInv : Obligations.StepKeepsInv := fun _ _ hI h => (step_effect h).keeps_inv hI

/-- A write of CMD keeps the invariant: the operation it starts is at P_START, where nothing is asked yet (R244). -/
theorem writeCmd_keeps_inv {s : State} (hI : Inv s) (c : Command) : Inv (s.writeCmd c) := by
  by_cases hb : s.status = .busy
  · rw [writeCmd_of_busy hb]; exact hI
  · rw [writeCmd_of_halted hb]
    exact inv_of_busy hI.pixWf hI.strWf rfl rfl (fun _ h => absurd rfl h) fun _ h => absurd rfl h

/-- Reset leaves empty buffers and no operation running (R240; log 13). -/
theorem inv_hardwareReset (s : State) : Inv s.hardwareReset where
  pixWf := rfl
  strWf := rfl
  errZero _ := rfl
  errCode h := by cases h
  encError h := by cases h
  decError h := by cases h
  decDone h := by cases h
  encRunning h := by cases h
  decRunning h := by cases h

/-- Settles O31: outside BUSY the invariant does not speak of parameters, and a buffer write keeps the canonical form. -/
theorem hostMovesKeepInv : Obligations.HostMovesKeepInv := by
  intro m s t hI h
  cases m with
  | command c => cases h; exact writeCmd_keeps_inv hI c
  | hardwareReset => cases h; exact inv_hardwareReset s
  | pix a b =>
    obtain ⟨hb, rfl⟩ := of_whenNotBusy_eq_next h
    exact hI.of_halted hb (Memory.write_wf a b hI.pixWf) hI.strWf rfl rfl rfl rfl ⟨rfl, rfl, rfl, rfl, rfl⟩
  | str a b =>
    obtain ⟨hb, rfl⟩ := of_whenNotBusy_eq_next h
    exact hI.of_halted hb hI.pixWf (Memory.write_wf a b hI.strWf) rfl rfl rfl rfl ⟨rfl, rfl, rfl, rfl, rfl⟩
  | encWidth | encHeight | encChannels | encColorspace | encPixLen | decLen | decStrict =>
    obtain ⟨hb, rfl⟩ := of_whenNotBusy_eq_next h
    exact hI.of_halted hb hI.pixWf hI.strWf rfl rfl rfl rfl ⟨rfl, rfl, rfl, rfl, rfl⟩

end Sys2Proof.Machine

/-! SUPPORT. The wire form of chunks: the decoder's equation for each kind of first byte, the bytes of a table word and
of a listing line, and the biased fields. -/

namespace Sys2Proof.Machine

/-! ### The fields of a byte -/

/-- Every word splits into a high and a low part. -/
theorem exists_append_eq {m n : Nat} (b : BitVec (m + n)) : ∃ (x : BitVec m) (y : BitVec n), x ++ y = b :=
  ⟨_, _, BitVec.extractLsb'_append_extractLsb'⟩

@[simp] theorem tagOf_append (t : BitVec 2) (x : BitVec 6) : tagOf (t ++ x) = t :=
  BitVec.extractLsb'_append_eq_left

@[simp] theorem payloadOf_append (t : BitVec 2) (x : BitVec 6) : payloadOf (t ++ x) = x :=
  BitVec.extractLsb'_append_eq_right

@[simp] theorem highNibble_append (x y : BitVec 4) : highNibble (x ++ y) = x := BitVec.extractLsb'_append_eq_left

@[simp] theorem lowNibble_append (x y : BitVec 4) : lowNibble (x ++ y) = y := BitVec.extractLsb'_append_eq_right

@[simp] theorem tagOf_diffByte (fr fg fb : BitVec 2) : tagOf (tagDiff ++ fr ++ fg ++ fb) = tagDiff :=
  calc tagOf (tagDiff ++ fr ++ fg ++ fb)
    _ = (tagDiff ++ fr ++ fg).extractLsb' 4 2 := BitVec.extractLsb'_append_eq_of_le (by decide)
    _ = (tagDiff ++ fr).extractLsb' 2 2 := BitVec.extractLsb'_append_eq_of_le (by decide)
    _ = tagDiff := BitVec.extractLsb'_append_eq_left

@[simp] theorem diffOf_diffByte (fr fg fb : BitVec 2) : diffOf (tagDiff ++ fr ++ fg ++ fb) = .diff fr fg fb := by
  have hfr : (tagDiff ++ fr ++ fg ++ fb).extractLsb' 4 2 = fr :=
    calc (tagDiff ++ fr ++ fg ++ fb).extractLsb' 4 2
      _ = (tagDiff ++ fr ++ fg).extractLsb' 2 2 := BitVec.extractLsb'_append_eq_of_le (by decide)
      _ = (tagDiff ++ fr).extractLsb' 0 2 := BitVec.extractLsb'_append_eq_of_le (by decide)
      _ = fr := BitVec.extractLsb'_append_eq_right
  have hfg : (tagDiff ++ fr ++ fg ++ fb).extractLsb' 2 2 = fg :=
    calc (tagDiff ++ fr ++ fg ++ fb).extractLsb' 2 2
      _ = (tagDiff ++ fr ++ fg).extractLsb' 0 2 := BitVec.extractLsb'_append_eq_of_le (by decide)
      _ = fg := BitVec.extractLsb'_append_eq_right
  have hfb : (tagDiff ++ fr ++ fg ++ fb).extractLsb' 0 2 = fb := BitVec.extractLsb'_append_eq_right
  exact congr (congr (congrArg Instr.diff hfr) hfg) hfb

/-- Only a byte with the two-bit tag of RUN can be one of the two full-byte tags (R82). -/
theorem ne_fullTag_of_tagOf {b : Byte} (h : tagOf b ≠ tagRun) : b ≠ tagRgb ∧ b ≠ tagRgba := by
  constructor <;> rintro rfl <;> exact h rfl

/-- A RUN byte with a legal payload is neither full-byte tag (R94). -/
theorem runByte_ne_fullTag {fr : BitVec 6} (h : fr.toNat < 62) : tagRun ++ fr ≠ tagRgb ∧ tagRun ++ fr ≠ tagRgba := by
  constructor <;> intro e <;> rw [← payloadOf_append tagRun fr, e] at h <;> exact absurd h (by decide)

/-! ### The kinds of first byte -/

/-- The first byte of each kind of chunk, with the fields it holds (R82). -/
inductive ChunkHead : Byte → Prop
  | rgb : ChunkHead tagRgb
  | rgba : ChunkHead tagRgba
  | index (idx : BitVec 6) : ChunkHead (tagIndex ++ idx)
  | diff (fr fg fb : BitVec 2) : ChunkHead (tagDiff ++ fr ++ fg ++ fb)
  | luma (fg : BitVec 6) : ChunkHead (tagLuma ++ fg)
  | run (fr : BitVec 6) (legal : fr.toNat < 62) : ChunkHead (tagRun ++ fr)

/-- A byte in the range of a two-bit tag is the tag before a payload. -/
theorem exists_payload {b : Byte} (t : BitVec 2) (lo : t.toNat * 64 ≤ b.toNat) (hi : b.toNat < t.toNat * 64 + 64) :
    ∃ x : BitVec 6, t ++ x = b := by
  obtain ⟨u, x, rfl⟩ := exists_append_eq (m := 2) (n := 6) b
  rw [append_toNat] at lo hi
  have hx := x.isLt
  obtain rfl : t = u := BitVec.eq_of_toNat_eq (by omega)
  exact ⟨x, rfl⟩

/-- A byte in the range of DIFF is the tag before three fields (R86). -/
theorem exists_diffFields {b : Byte} (lo : 0x40 ≤ b.toNat) (hi : b.toNat < 0x80) :
    ∃ fr fg fb : BitVec 2, tagDiff ++ fr ++ fg ++ fb = b := by
  obtain ⟨x, fb, rfl⟩ := exists_append_eq (m := 6) (n := 2) b
  obtain ⟨y, fg, rfl⟩ := exists_append_eq (m := 4) (n := 2) x
  obtain ⟨t, fr, rfl⟩ := exists_append_eq (m := 2) (n := 2) y
  simp only [append_toNat] at lo hi
  have hfr := fr.isLt
  have hfg := fg.isLt
  have hfb := fb.isLt
  obtain rfl : t = tagDiff := BitVec.eq_of_toNat_eq (show t.toNat = 1 by omega)
  exact ⟨fr, fg, fb, rfl⟩

/-- Every byte is the first byte of one kind of chunk (R82). -/
theorem chunkHead (b : Byte) : ChunkHead b := by
  have hb := b.isLt
  by_cases hIndex : b.toNat < 0x40
  · obtain ⟨idx, rfl⟩ := exists_payload tagIndex (Nat.zero_le _) hIndex
    exact .index idx
  by_cases hDiff : b.toNat < 0x80
  · obtain ⟨fr, fg, fb, rfl⟩ := exists_diffFields (not_lt.1 hIndex) hDiff
    exact .diff fr fg fb
  by_cases hLuma : b.toNat < 0xC0
  · obtain ⟨fg, rfl⟩ := exists_payload tagLuma (not_lt.1 hDiff) hLuma
    exact .luma fg
  by_cases hRgb : b = tagRgb
  · exact hRgb ▸ .rgb
  by_cases hRgba : b = tagRgba
  · exact hRgba ▸ .rgba
  obtain ⟨fr, rfl⟩ := exists_payload tagRun (not_lt.1 hLuma) hb
  refine .run fr ?_
  have hfr := fr.isLt
  have h62 : fr.toNat ≠ 62 := fun e => hRgb (by rw [BitVec.eq_of_toNat_eq (y := 62) e]; rfl)
  have h63 : fr.toNat ≠ 63 := fun e => hRgba (by rw [BitVec.eq_of_toNat_eq (y := 63) e]; rfl)
  omega

/-! ### The decoder, kind by kind -/

theorem decode_rgb (r g b : Byte) (rest : List Byte) :
    decode (tagRgb :: r :: g :: b :: rest) = .ok (.rgb r g b, rest) := rfl

theorem decode_rgba (r g b a : Byte) (rest : List Byte) :
    decode (tagRgba :: r :: g :: b :: a :: rest) = .ok (.rgba r g b a, rest) := rfl

theorem decode_index (idx : BitVec 6) (bs : List Byte) :
    decode ((tagIndex ++ idx) :: bs) = .ok (.index idx, bs) := by
  obtain ⟨hRgb, hRgba⟩ := ne_fullTag_of_tagOf (b := tagIndex ++ idx) (by rw [tagOf_append]; decide)
  simp [decode, hRgb, hRgba]

theorem decode_diff (fr fg fb : BitVec 2) (bs : List Byte) :
    decode ((tagDiff ++ fr ++ fg ++ fb) :: bs) = .ok (.diff fr fg fb, bs) := by
  obtain ⟨hRgb, hRgba⟩ := ne_fullTag_of_tagOf (b := tagDiff ++ fr ++ fg ++ fb) (by rw [tagOf_diffByte]; decide)
  simp [decode, hRgb, hRgba, show tagDiff ≠ tagIndex by decide]

theorem decode_luma (fg : BitVec 6) (frg fbg : BitVec 4) (rest : List Byte) :
    decode ((tagLuma ++ fg) :: (frg ++ fbg) :: rest) = .ok (.luma fg frg fbg, rest) := by
  obtain ⟨hRgb, hRgba⟩ := ne_fullTag_of_tagOf (b := tagLuma ++ fg) (by rw [tagOf_append]; decide)
  simp [decode, hRgb, hRgba, show tagLuma ≠ tagIndex by decide, show tagLuma ≠ tagDiff by decide]

theorem decode_luma_truncated (fg : BitVec 6) : decode [tagLuma ++ fg] = .error (.truncated 2) := by
  obtain ⟨hRgb, hRgba⟩ := ne_fullTag_of_tagOf (b := tagLuma ++ fg) (by rw [tagOf_append]; decide)
  simp [decode, hRgb, hRgba, show tagLuma ≠ tagIndex by decide, show tagLuma ≠ tagDiff by decide]

theorem decode_run {fr : BitVec 6} (legal : fr.toNat < 62) (bs : List Byte) :
    decode ((tagRun ++ fr) :: bs) = .ok (.run fr, bs) := by
  obtain ⟨hRgb, hRgba⟩ := runByte_ne_fullTag legal
  simp [decode, hRgb, hRgba, show tagRun ≠ tagIndex by decide, show tagRun ≠ tagDiff by decide,
    show tagRun ≠ tagLuma by decide]

/-! ### Decoding and encoding are inverse -/

/-- Settles O1, by the decoder's equation for the chunk's kind. -/
theorem decodeUndoesEncode : Obligations.DecodeUndoesEncode := by
  intro i rest hw
  cases i with
  | rgb r g b => exact decode_rgb r g b rest
  | rgba r g b a => exact decode_rgba r g b a rest
  | index idx => exact decode_index idx rest
  | diff fr fg fb => exact decode_diff fr fg fb rest
  | luma fg frg fbg => exact decode_luma fg frg fbg rest
  | run fr => exact decode_run (of_decide_eq_true hw) rest

/-- What is decoded, encoded again, is the bytes it was decoded from. -/
theorem encode_append_of_decode {bs rest : List Byte} {i : Instr} (h : decode bs = .ok (i, rest)) :
    encode i ++ rest = bs := by
  cases bs with
  | nil => cases h
  | cons b0 bs =>
    cases chunkHead b0 with
    | rgb =>
      match bs, h with
      | r :: g :: b :: bs, h => cases h; rfl
    | rgba =>
      match bs, h with
      | r :: g :: b :: a :: bs, h => cases h; rfl
    | index idx => rw [decode_index] at h; cases h; rfl
    | diff fr fg fb => rw [decode_diff] at h; cases h; rfl
    | luma fg =>
      cases bs with
      | nil => rw [decode_luma_truncated] at h; cases h
      | cons b1 bs =>
        obtain ⟨frg, fbg, rfl⟩ := exists_append_eq (m := 4) (n := 4) b1
        rw [decode_luma] at h; cases h; rfl
    | run fr legal => rw [decode_run legal] at h; cases h; rfl

/-- Settles O2, by the kind of the first byte. -/
theorem encodeUndoesDecode : Obligations.EncodeUndoesDecode := fun _ _ _ h =>
  ⟨(wellFormed_and_length_of_decode h).1, encode_append_of_decode h⟩

/-! ### The length told by the first byte -/

@[simp] theorem chunkLength_tagRgb : chunkLength tagRgb = 4 := rfl

@[simp] theorem chunkLength_tagRgba : chunkLength tagRgba = 5 := rfl

@[simp] theorem chunkLength_indexByte (idx : BitVec 6) : chunkLength (tagIndex ++ idx) = 1 :=
  (Laws.EncodeLength.firstByte idx).1

@[simp] theorem chunkLength_diffByte (fr fg fb : BitVec 2) : chunkLength (tagDiff ++ fr ++ fg ++ fb) = 1 :=
  (Laws.EncodeLength.diff fr fg fb rfl).2.2 _ _ rfl

@[simp] theorem chunkLength_lumaByte (fg : BitVec 6) : chunkLength (tagLuma ++ fg) = 2 :=
  (Laws.EncodeLength.firstByte fg).2.1

theorem chunkLength_runByte {fr : BitVec 6} (legal : fr.toNat < 62) : chunkLength (tagRun ++ fr) = 1 :=
  (Laws.EncodeLength.firstByte fr).2.2 legal

/-- With the bytes its first byte asks for, a chunk is read and the rest is left; with fewer, the decoder refuses and
names the length (R96, R97). -/
theorem decode_cons_by_length (b0 : Byte) (bs : List Byte) :
    (chunkLength b0 ≤ bs.length + 1 → ∃ i, decode (b0 :: bs) = .ok (i, (b0 :: bs).drop (chunkLength b0)))
    ∧ (bs.length + 1 < chunkLength b0 → decode (b0 :: bs) = .error (.truncated (chunkLength b0))) := by
  have single {c : Byte} {i : Instr} (hl : chunkLength c = 1) (hd : decode (c :: bs) = .ok (i, bs)) :
      (chunkLength c ≤ bs.length + 1 → ∃ i, decode (c :: bs) = .ok (i, (c :: bs).drop (chunkLength c)))
      ∧ (bs.length + 1 < chunkLength c → decode (c :: bs) = .error (.truncated (chunkLength c))) := by
    rw [hl]
    exact ⟨fun _ => ⟨i, hd⟩, fun h => absurd h (by omega)⟩
  cases chunkHead b0 with
  | rgb =>
    match bs with
    | [] | [_] | [_, _] => exact ⟨fun h => absurd h (by simp), fun _ => rfl⟩
    | r :: g :: b :: rest => exact ⟨fun _ => ⟨_, decode_rgb r g b rest⟩, fun h => absurd h (by simp)⟩
  | rgba =>
    match bs with
    | [] | [_] | [_, _] | [_, _, _] => exact ⟨fun h => absurd h (by simp), fun _ => rfl⟩
    | r :: g :: b :: a :: rest => exact ⟨fun _ => ⟨_, decode_rgba r g b a rest⟩, fun h => absurd h (by simp)⟩
  | index idx => exact single (chunkLength_indexByte idx) (decode_index idx bs)
  | diff fr fg fb => exact single (chunkLength_diffByte fr fg fb) (decode_diff fr fg fb bs)
  | luma fg =>
    rw [chunkLength_lumaByte]
    match bs with
    | [] => exact ⟨fun h => absurd h (by simp), fun _ => decode_luma_truncated fg⟩
    | b1 :: rest =>
      obtain ⟨frg, fbg, rfl⟩ := exists_append_eq (m := 4) (n := 4) b1
      exact ⟨fun _ => ⟨_, decode_luma fg frg fbg rest⟩, fun h => absurd h (by simp)⟩
  | run fr legal => exact single (chunkLength_runByte legal) (decode_run legal bs)

/-- The bytes with the tag of LUMA are a range (R82). -/
theorem tagOf_eq_tagLuma_iff (b : Byte) : tagOf b = tagLuma ↔ 0x80 ≤ b.toNat ∧ b.toNat < 0xC0 := by
  obtain ⟨t, x, rfl⟩ := exists_append_eq (m := 2) (n := 6) b
  have hx := x.isLt
  rw [tagOf_append, append_toNat, ← BitVec.toNat_inj, show tagLuma.toNat = 2 from rfl]
  omega

/-- The length of a chunk by the ranges of its first byte (R97). -/
theorem chunkLength_eq_by_range (b0 : Byte) : chunkLength b0 =
    if b0 = 0xFE then 4 else if b0 = 0xFF then 5 else if 0x80 ≤ b0.toNat ∧ b0.toNat < 0xC0 then 2 else 1 := by
  simp only [chunkLength, tagOf_eq_tagLuma_iff]
  rfl

/-- Settles O3: the ranges say the length that the decoder looks for. -/
theorem firstByteTellsLength : Obligations.FirstByteTellsLength := by
  refine ⟨rfl, fun b0 bs n hn => ?_⟩
  obtain rfl : n = chunkLength b0 := hn.trans (chunkLength_eq_by_range b0).symm
  exact decode_cons_by_length b0 bs

/-- Settles O4: a first byte in the range of a tag is that tag before the fields. -/
theorem firstByteSelectsChunk : Obligations.FirstByteSelectsChunk := by
  intro b0 b1 b2 b3 b4 rest
  refine ⟨fun hi => ?index, fun ⟨lo, hi⟩ => ?diff, fun ⟨lo, hi⟩ => ?luma, fun ⟨lo, hi⟩ => ?run, fun h => ?rgb,
    fun h => ?rgba⟩
  case index =>
    obtain ⟨idx, rfl⟩ := exists_payload tagIndex (Nat.zero_le _) hi
    exact ⟨idx, decode_index idx _, (append_toNat tagIndex idx).trans (Nat.zero_add _)⟩
  case diff =>
    obtain ⟨fr, fg, fb, rfl⟩ := exists_diffFields lo hi
    refine ⟨fr, fg, fb, decode_diff fr fg fb _, ?_⟩
    simp only [append_toNat, show tagDiff.toNat = 1 from rfl]
    omega
  case luma =>
    obtain ⟨fg, rfl⟩ := exists_payload tagLuma lo hi
    obtain ⟨frg, fbg, rfl⟩ := exists_append_eq (m := 4) (n := 4) b1
    exact ⟨fg, frg, fbg, decode_luma fg frg fbg _, append_toNat tagLuma fg, append_toNat frg fbg⟩
  case run =>
    obtain ⟨fr, rfl⟩ := exists_payload tagRun lo (Nat.lt_of_le_of_lt hi (by decide))
    rw [append_toNat, show tagRun.toNat = 3 from rfl] at hi
    exact ⟨fr, decode_run (by omega) _, append_toNat tagRun fr⟩
  case rgb =>
    obtain rfl : b0 = tagRgb := BitVec.eq_of_toNat_eq h
    exact decode_rgb b1 b2 b3 _
  case rgba =>
    obtain rfl : b0 = tagRgba := BitVec.eq_of_toNat_eq h
    exact decode_rgba b1 b2 b3 b4 rest

/-- Settles O5: each word is its fields after its tag, and the decoder's equation of the kind reads it. -/
theorem writtenOutWordsDecode : Obligations.WrittenOutWordsDecode :=
  ⟨decode_rgb 1 2 3 [], decode_rgba 1 2 3 4 [], decode_index 0b100101 [], decode_diff 0b11 0b10 0b01 [],
    decode_luma 0b100011 0b1001 0b0110 [], decode_run (by decide : (0b111101 : BitVec 6).toNat < 62) []⟩

/-! ### Table words -/

/-- Byte `k` of a table word is byte `k` of the chunk, and zero above it. -/
theorem ofNat_wordValue_shiftRight (bs : List Byte) (k : Nat) :
    BitVec.ofNat 8 (wordValue bs >>> (8 * k)) = bs.getD k 0 := by
  induction bs generalizing k with
  | nil => simp [wordValue]
  | cons b bs ih =>
    have hb := b.isLt
    cases k with
    | zero =>
      apply BitVec.eq_of_toNat_eq
      simpa [wordValue] using hb
    | succ k =>
      have shift : wordValue (b :: bs) >>> 8 = wordValue bs := by
        simp only [wordValue, Nat.shiftRight_eq_div_pow]
        omega
      rw [Nat.mul_succ, Nat.add_comm, Nat.shiftRight_add, shift, ih, List.getD_cons_succ]

/-- A table word has eight bits per byte. -/
theorem wordValue_lt (bs : List Byte) : wordValue bs < 2 ^ (8 * bs.length) := by
  induction bs with
  | nil => exact Nat.one_pos
  | cons b bs ih =>
    have hb := b.isLt
    rw [List.length_cons, Nat.mul_succ, pow_add, wordValue]
    omega

/-- The bytes of a table word are the bytes it was made from, then zeros up to the longest chunk. -/
theorem wordBytes_wordValue {bs : List Byte} (h : bs.length ≤ maxChunkLength) :
    wordBytes (8 * bs.length) (wordValue bs) = bs ++ List.replicate (maxChunkLength - bs.length) 0 := by
  refine List.ext_getElem (by simp [wordBytes]; omega) fun k _ _ => ?_
  simp only [wordBytes, List.getElem_map, List.getElem_range, Nat.mod_eq_of_lt (wordValue_lt bs),
    ofNat_wordValue_shiftRight]
  rw [List.getElem_append]
  split_ifs with hk
  · exact List.getD_eq_getElem _ _ hk
  · rw [List.getElem_replicate, List.getD_eq_default _ _ (not_lt.1 hk)]

/-- Settles O6: the table word's bytes are the chunk's encoding and zeros after it. -/
theorem tableWordDecodes : Obligations.TableWordDecodes := by
  intro i hw
  rw [decodeTableWord, wordBytes_wordValue (encode_length i).2, decodeUndoesEncode i _ hw]

/-! ### Biased fields and listing lines -/

/-- A field whose biased value is in range holds that value (R90, R91). -/
theorem toNat_rebias {n : Nat} {bias v : Int} (h0 : 0 ≤ v + bias) (h1 : v + bias < 2 ^ n) :
    ((rebias n bias v).toNat : Int) = v + bias := by
  have := unbias_rebias h0 h1
  unfold unbias at this
  omega

/-- Putting back a bias that was removed (R90, R91). -/
@[simp] theorem rebias_unbias {n : Nat} (bias : Int) (f : BitVec n) : rebias n bias (unbias bias f) = f := by
  simp [rebias, unbias]

/-- The range of an unbiased field (R90, R91). -/
theorem unbias_bounds {n : Nat} (bias : Int) (f : BitVec n) : -bias ≤ unbias bias f ∧ unbias bias f < 2 ^ n - bias := by
  have hf : (f.toNat : Int) < 2 ^ n := by exact_mod_cast f.isLt
  unfold unbias
  omega

/-- The RUN payloads that exist are those whose count is at most 62 (R92, R94). -/
theorem run_wellFormed_iff (fr : BitVec 6) : (Instr.run fr).wellFormed = true ↔ 1 ≤ runCount fr ∧ runCount fr ≤ 62 := by
  simp only [Instr.wellFormed, decide_eq_true_eq, runCount]
  omega

/-- Settles O8, from the laws of a bias over any field width. -/
theorem biasedFieldsCoverSignedRange : Obligations.BiasedFieldsCoverSignedRange := by
  have covers {n : Nat} (bias hi : Int) (top : 2 ^ n - bias = hi + 1) (f : BitVec n) :
      -bias ≤ unbias bias f ∧ unbias bias f ≤ hi ∧ rebias n bias (unbias bias f) = f := by
    obtain ⟨lo, up⟩ := unbias_bounds bias f
    exact ⟨lo, by omega, rebias_unbias bias f⟩
  exact ⟨covers 2 1 rfl, covers 32 31 rfl, covers 8 7 rfl, fun d lo hi => unbias_rebias (by omega) (by omega),
    fun d lo hi => unbias_rebias (by omega) (by omega), fun d lo hi => unbias_rebias (by omega) (by omega),
    run_wellFormed_iff⟩

/-- A word is the residue of any integer it is the value of. -/
theorem eq_ofInt_of_toNat {n : Nat} {b : BitVec n} {v : Int} (h : (b.toNat : Int) = v) : b = BitVec.ofInt n v := by
  simp [← h]

/-- The byte of a DIFF line (R98). -/
theorem diffByte_of_line {dr dg db : Int} (hr : -2 ≤ dr ∧ dr ≤ 1) (hg : -2 ≤ dg ∧ dg ≤ 1) (hb : -2 ≤ db ∧ db ≤ 1) :
    tagDiff ++ rebias 2 2 dr ++ rebias 2 2 dg ++ rebias 2 2 db
      = BitVec.ofInt 8 (0x40 + (dr + 2) * 16 + (dg + 2) * 4 + (db + 2)) := by
  have fieldR := toNat_rebias (n := 2) (bias := 2) (v := dr) (by omega) (by omega)
  have fieldG := toNat_rebias (n := 2) (bias := 2) (v := dg) (by omega) (by omega)
  have fieldB := toNat_rebias (n := 2) (bias := 2) (v := db) (by omega) (by omega)
  apply eq_ofInt_of_toNat
  simp only [append_toNat, show tagDiff.toNat = 1 from rfl]
  omega

/-- The first byte of a LUMA line (R98). -/
theorem lumaByte_of_line {dg : Int} (hg : -32 ≤ dg ∧ dg ≤ 31) :
    tagLuma ++ rebias 6 32 dg = BitVec.ofInt 8 (0x80 + (dg + 32)) := by
  have field := toNat_rebias (n := 6) (bias := 32) (v := dg) (by omega) (by omega)
  apply eq_ofInt_of_toNat
  rw [append_toNat, show tagLuma.toNat = 2 from rfl]
  omega

/-- The second byte of a LUMA line (R98). -/
theorem lumaNibbles_of_line {drg dbg : Int} (hr : -8 ≤ drg ∧ drg ≤ 7) (hb : -8 ≤ dbg ∧ dbg ≤ 7) :
    rebias 4 8 drg ++ rebias 4 8 dbg = BitVec.ofInt 8 ((drg + 8) * 16 + (dbg + 8)) := by
  have fieldR := toNat_rebias (n := 4) (bias := 8) (v := drg) (by omega) (by omega)
  have fieldB := toNat_rebias (n := 4) (bias := 8) (v := dbg) (by omega) (by omega)
  apply eq_ofInt_of_toNat
  rw [append_toNat]
  omega

/-- A six-bit operand after a tag, as a byte (R98). -/
theorem tag_append_ofNat (t : BitVec 2) {v : Nat} (hv : v < 64) :
    t ++ BitVec.ofNat 6 v = BitVec.ofNat 8 (t.toNat * 64 + v) := by
  apply BitVec.eq_of_toNat_eq
  have ht := t.isLt
  rw [append_toNat, BitVec.toNat_ofNat, BitVec.toNat_ofNat]
  omega

/-- Settles O7, line by line. -/
theorem listingLineBytes : Obligations.ListingLineBytes := by
  intro l i hl hc
  cases l <;> simp only [Line.legal, Bool.and_eq_true, decide_eq_true_eq] at hl <;> cases hc
  case rgb | rgba => exact ⟨rfl, rfl⟩
  case index i => exact ⟨rfl, congrArg ([·]) (tag_append_ofNat tagIndex hl)⟩
  case diff dr dg db =>
    obtain ⟨⟨hr, hg⟩, hb⟩ := hl
    exact ⟨rfl, congrArg ([·]) (diffByte_of_line hr hg hb)⟩
  case luma dg drg dbg =>
    obtain ⟨⟨hg, hr⟩, hb⟩ := hl
    exact ⟨rfl, congrArg₂ ([·, ·]) (lumaByte_of_line hg) (lumaNibbles_of_line hr hb)⟩
  case run n =>
    refine ⟨?_, congrArg ([·]) (tag_append_ofNat tagRun (by omega))⟩
    simp only [Instr.wellFormed, decide_eq_true_eq, BitVec.toNat_ofNat]
    omega

end Sys2Proof.Machine

/-! SUPPORT. The shared primitives: the bytes of a pixel in PIX, the value of a packed word, the hash, the update. -/

namespace Sys2Proof.Machine

/-! ### Pixels in PIX -/

/-- Each byte of a sequence written is read back at its own address. -/
theorem Memory.read_writeBytes_inside {m : Memory} (a : Nat) (bs : List Byte) (h : m.wf = true) {k : Nat}
    (hk : k < bs.length) : (m.writeBytes a bs).read (a + k) = bs[k] := by
  have stored := Memory.readBytes_getElem? (m.writeBytes a bs) a bs.length k hk
  rw [Memory.readBytes_writeBytes a bs h, List.getElem?_eq_getElem hk] at stored
  exact (Option.some.inj stored).symm

theorem storePixel_four (m : Memory) (a : Nat) (w : Word) :
    storePixel m a 4 w = m.writeBytes a [red w, green w, blue w, alpha w] := rfl

/-- With 3 channels the alpha of the pixel is dropped (R116). -/
theorem storePixel_three (m : Memory) (a : Nat) (w : Word) :
    storePixel m a 3 w = m.writeBytes a [red w, green w, blue w] := rfl

/-- Settles O13: a pixel is stored as the sequence of its components, whose bytes are read back and whose outside is
left alone. -/
theorem storePixelWritesComponents : Obligations.StorePixelWritesComponents := by
  intro m a w hw
  have stored (bs : List Byte) (k : Nat) (hk : k < bs.length) : (m.writeBytes a bs).read (a + k) = bs[k] :=
    Memory.read_writeBytes_inside a bs hw hk
  have outside (bs : List Byte) (x : Nat) (hx : x < a ∨ a + bs.length ≤ x) : (m.writeBytes a bs).read x = m.read x :=
    Memory.read_writeBytes_outside m bs hx
  rw [storePixel_four, storePixel_three]
  constructor
  case left =>
    exact ⟨stored _ 0 (by simp), stored _ 1 (by simp), stored _ 2 (by simp), stored _ 3 (by simp),
      outside [red w, green w, blue w, alpha w]⟩
  case right =>
    exact ⟨stored _ 0 (by simp), stored _ 1 (by simp), stored _ 2 (by simp), outside [red w, green w, blue w]⟩

theorem loadPixel_four (m : Memory) (i : Nat) : loadPixel m i 4 =
    pack (m.read (i * 4)) (m.read (i * 4 + 1)) (m.read (i * 4 + 2)) (m.read (i * 4 + 3)) := rfl

/-- With 3 channels alpha is 255 (R112). -/
theorem loadPixel_three (m : Memory) (i : Nat) : loadPixel m i 3 =
    pack (m.read (i * 3)) (m.read (i * 3 + 1)) (m.read (i * 3 + 2)) 255 := rfl

/-- Settles O12, by the equation of each channel count. -/
theorem loadPixelReadsComponents : Obligations.LoadPixelReadsComponents := fun m i =>
  ⟨loadPixel_four m i, loadPixel_three m i⟩

/-! ### Packed words -/

/-- The value of a packed pixel: R is the most significant byte (R110). -/
theorem pack_toNat (r g b a : Byte) :
    (pack r g b a).toNat = r.toNat * 2 ^ 24 + g.toNat * 2 ^ 16 + b.toNat * 2 ^ 8 + a.toNat := by
  simp only [pack, append_toNat]
  omega

/-- Packing undoes unpacking (R111). -/
@[simp] theorem pack_components (w : Word) : pack (red w) (green w) (blue w) (alpha w) = w :=
  Word.ext_components (red_pack ..) (green_pack ..) (blue_pack ..) (alpha_pack ..)

/-- Settles O9, from the value of a packed word and the components of one. -/
theorem packUnpackInverse : Obligations.PackUnpackInverse :=
  ⟨fun r g b a => ⟨pack_toNat r g b a, red_pack r g b a, green_pack r g b a, blue_pack r g b a, alpha_pack r g b a⟩,
    pack_components⟩

/-- Settles O10: the hash sums the components of the packed word, and six bits of the sum are its residue. -/
theorem hashIsWeightedSumModulo64 : Obligations.HashIsWeightedSumModulo64 := by
  intro r g b a
  rw [pixelHash, BitVec.toNat_ofNat, hashSum, red_pack, green_pack, blue_pack, alpha_pack]

/-- A big-endian word has the layout of a packed pixel (R110, R119). -/
theorem be32Value_eq_pack (b0 b1 b2 b3 : Byte) : be32Value b0 b1 b2 b3 = pack b0 b1 b2 b3 := rfl

/-- The big-endian bytes of a word are the components of a packed pixel in order (R111, R118). -/
theorem be32Bytes_eq_components (v : Word) : be32Bytes v = [red v, green v, blue v, alpha v] := rfl

/-- Settles O11: the codec is packing and unpacking, with the bytes in a list. -/
theorem bigEndianWordCodec : Obligations.BigEndianWordCodec := by
  refine ⟨fun v => ⟨_, _, _, _, be32Bytes_eq_components v, pack_components v⟩, fun b0 b1 b2 b3 => ?_⟩
  rw [be32Value_eq_pack, be32Bytes_eq_components, red_pack, green_pack, blue_pack, alpha_pack]
  exact ⟨pack_toNat b0 b1 b2 b3, rfl⟩

/-! ### The update -/

/-- An update changes nothing but IDX and `prev` (R117). -/
theorem update_restored (s : State) (p : Word) : { s.update p with idx := s.idx, prev := s.prev } = s := rfl

/-- Settles O14, from the reads of IDX after an update. -/
theorem updateWritesEntryAndPrev : Obligations.UpdateWritesEntryAndPrev := fun s p =>
  ⟨updatedWith_of_update rfl rfl, update_restored s p⟩

end Sys2Proof.Machine

/-! SUPPORT. The encoder's steps, an equation per case: appends, the start step, the pixel step by what it emits, the
end step; and the bytes of the selected chunk in the formulas of R148. -/

namespace Sys2Proof.Machine

/-! ### Appends -/

theorem fits_iff {cap : Option Nat} {n : Nat} : fits cap n = true ↔ ∀ c, cap = some c → n ≤ c := by
  cases cap <;> simp [fits]

/-- Settles O15, from the two cases of an append. -/
theorem appendTakesAllOrRaises : Obligations.AppendTakesAllOrRaises := by
  intro s bs hw
  refine ⟨fun h => ⟨_, State.append_of_fits (fits_iff.2 h), appended_effect bs hw, rfl⟩, fun c hc hlt => ?_⟩
  have raised : s.append bs = .raised .outOfCapacity s.outLen :=
    State.append_of_full (by simpa [hc, fits] using hlt)
  exact ⟨raised, by rw [raised, Action.settle_raised]⟩

/-- An encode's error has ENC_OUT_LEN 0 and keeps the bytes of STR that the operation had not written (R222; log 4). -/
theorem raiseError_str_of_enc {s : State} (ho : s.op = .enc) (k : ErrorKind) (n : Nat) :
    (s.raiseError k n).encOutLen = 0 ∧ ∀ a, n ≤ a → (s.raiseError k n).str.read a = s.str.read a := by
  refine ⟨if_pos ho, fun a ha => ?_⟩
  rw [State.raiseError_str, if_pos ho, Memory.read_scrub_above _ ha]

/-! ### The start step -/

/-- What the argument check refuses (R131). -/
theorem encArgsOk_eq_false_iff (s : State) : s.encArgsOk = false ↔
    (s.encChannels ≠ 3 ∧ s.encChannels ≠ 4) ∨ 1 < s.encColorspace.toNat
    ∨ s.encPixLen ≠ s.encWidth.toNat * s.encHeight.toNat * s.encChannels.toNat := by
  rw [← Bool.not_eq_true, encArgsOk_iff, ← not_lt]
  tauto

/-- Settles O34: the start step raises `BadArguments` where the argument check fails, and otherwise leaves ERR at 0 or
raises another error. -/
theorem encodeRejectsBadArguments : Obligations.EncodeRejectsBadArguments := by
  intro s hb ho hp h0
  refine ⟨_, step_encStart hb ho hp, ?_⟩
  rw [← encArgsOk_eq_false_iff]
  cases args : s.encArgsOk with
  | false =>
    rw [encStart_of_bad args]
    obtain ⟨hpix, -⟩ := raiseError_of_enc ho .badArguments 0
    exact ⟨⟨fun _ => rfl, fun _ => ⟨rfl, rfl⟩⟩, fun _ => ⟨if_pos ho, if_pos ho, hpix, raiseError_parameters _ _ _⟩⟩
  | true =>
    have noError : (encStart s).err ≠ 8 := by
      rcases encStart_of_ok args with ⟨-, e⟩ | ⟨-, e⟩ <;> rw [e]
      · rw [State.setPhase_err, State.appended_err, State.encInit_err, h0]; decide
      · exact (by decide : ErrorKind.outOfCapacity.code ≠ 8)
    exact ⟨⟨fun h => absurd h.2 noError, fun h => by cases h⟩, fun h => absurd h noError⟩

/-- Settles O35, from the two cases of the start step with legal arguments. -/
theorem encodeStartInitialises : Obligations.EncodeStartInitialises := by
  intro s hb ho hp hw hch hcs hlen
  rw [step_encStart hb ho hp]
  rcases encStart_of_ok ((encArgsOk_iff s).2 ⟨hch, hcs, hlen⟩) with ⟨room, e⟩ | ⟨full, e⟩ <;> rw [e]
  · obtain ⟨-, written, otherBytes⟩ := appended_effect (s := s.encInit)
      (headerBytes s.encWidth s.encHeight s.encChannels s.encColorspace) hw
    refine ⟨fun _ => ⟨_, rfl, idxRead_of_cleared rfl, rfl, rfl, rfl, rfl, rfl, hb, ho, rfl, rfl, written,
      fun a ha => otherBytes a (.inr ?_), rfl, ⟨rfl, rfl, rfl, rfl, rfl, rfl, rfl, rfl⟩, ⟨rfl, rfl, rfl, rfl, rfl⟩⟩,
      fun full => by simp [full] at room⟩
    simpa using ha
  · obtain ⟨hpix, hres⟩ := raiseError_of_enc ho .outOfCapacity 0
    exact ⟨fun room => by simp [room] at full,
      fun _ => ⟨_, rfl, rfl, rfl, if_pos ho, hpix, raiseError_parameters _ _ _, hres⟩⟩

/-! ### The pixel step -/

/-- The run accumulator appends 0xC0 and leaves the run open, unless an open run can be raised (R138, R140, R252). -/
theorem emitPixel_of_runAppend {s : State} (same : s.nextPixel = s.prev)
    (full : s.runOpen = true → s.tailByte = 0xFD) :
    s.fetchPixel.emitPixel = (s.fetchPixel.setRunOpen true).append [0xC0] := by
  rw [emitPixel_of_eq same, State.accumulateRun]
  cases hopen : s.runOpen with
  | true =>
    have kept : s.fetchPixel.setRunOpen true = s.fetchPixel := by rw [← hopen]; rfl
    rw [if_pos (show s.fetchPixel.runOpen = true from hopen),
      if_pos (show s.fetchPixel.tailByte = maxRunByte from full hopen), kept]
    rfl
  | false =>
    rw [if_neg (show ¬ s.fetchPixel.runOpen = true by simp [State.fetchPixel, hopen]), State.runStart]
    rcases State.append_cases s.fetchPixel (encode (.run 0)) with ⟨room, e⟩ | ⟨noRoom, e⟩ <;> rw [e]
    · exact (State.append_of_fits (s := s.fetchPixel.setRunOpen true) room).symm
    · exact (State.append_of_full (s := s.fetchPixel.setRunOpen true) noRoom).symm

/-- Run extension (R139). -/
theorem encPixel_of_runExtend {s : State} (same : s.nextPixel = s.prev) (hopen : s.runOpen = true)
    (notFull : s.tailByte ≠ 0xFD) : encPixel s = s.fetchPixel.raiseTail.finishPixel := by
  rw [encPixel, emitPixel_of_eq same, State.accumulateRun, if_pos (show s.fetchPixel.runOpen = true from hopen),
    if_neg (show ¬ s.fetchPixel.tailByte = maxRunByte from notFull)]
  rfl

/-- A pixel step whose emission is an append that fits. -/
theorem encPixel_of_append_fits {s : State} {b : Bool} {bs : List Byte}
    (emits : s.fetchPixel.emitPixel = (s.fetchPixel.setRunOpen b).append bs)
    (room : fits s.cfg.outCap (s.outLen + bs.length) = true) :
    encPixel s = ((s.fetchPixel.setRunOpen b).appended bs).finishPixel := by
  rw [encPixel, emits, State.append_of_fits (s := s.fetchPixel.setRunOpen b) room]; rfl

/-- A pixel step whose emission is an append that does not fit. -/
theorem encPixel_of_append_full {s : State} {b : Bool} {bs : List Byte}
    (emits : s.fetchPixel.emitPixel = (s.fetchPixel.setRunOpen b).append bs)
    (full : fits s.cfg.outCap (s.outLen + bs.length) = false) :
    encPixel s = s.raiseError .outOfCapacity s.outLen := by
  rw [encPixel, emits, State.append_of_full (s := s.fetchPixel.setRunOpen b) full]; rfl

/-- A due pixel step whose emission is an append takes the bytes and finishes the pixel, or raises (R133, R135). -/
theorem appendStep_of_emitPixel {s : State} {b : Bool} {bs : List Byte} (hdue : s.pixelDue) (hw : s.str.wf = true)
    (emits : s.fetchPixel.emitPixel = (s.fetchPixel.setRunOpen b).append bs) : AppendStep s s.nextPixel bs b := by
  rw [AppendStep, step_encBody_of_due hdue]
  refine ⟨fun room => ?_, fun full => ?_⟩
  · rw [encPixel_of_append_fits emits room]
    obtain ⟨hlen, written, otherBytes⟩ := appended_effect bs hw
    exact ⟨_, rfl, pixelEffect_appended s b bs, hlen, written, otherBytes⟩
  · rw [encPixel_of_append_full emits full]
    have ho : s.op = .enc := hdue.2.1
    obtain ⟨hpix, hres⟩ := raiseError_of_enc ho .outOfCapacity s.outLen
    obtain ⟨hlen, unwritten⟩ := raiseError_str_of_enc ho .outOfCapacity s.outLen
    exact ⟨_, rfl, rfl, rfl, hlen, rfl, rfl, rfl, rfl, rfl, hpix, unwritten, raiseError_parameters _ _ _, hres⟩

/-- Settles O36: with no run open the accumulator appends. -/
theorem runStartAppendsCount1 : Obligations.RunStartAppendsCount1 := fun _ hdue hw same hclosed =>
  appendStep_of_emitPixel hdue hw (emitPixel_of_runAppend same fun hopen => by simp [hclosed] at hopen)

/-- Settles O37: the tail byte is written once, at its own address. -/
theorem runExtensionRaisesTailByte : Obligations.RunExtensionRaisesTailByte := by
  intro s hdue hw same hopen notFull
  rw [step_encBody_of_due hdue, encPixel_of_runExtend same hopen notFull]
  exact ⟨_, rfl, pixelEffect_runExtended hopen, rfl, Memory.read_write_same _ _ hw,
    fun _ ha => Memory.read_write_ne _ _ ha⟩

/-- Settles O38: with the tail byte full the accumulator appends. -/
theorem runOverflowAppendsFreshRun : Obligations.RunOverflowAppendsFreshRun := fun _ hdue hw same _ full =>
  appendStep_of_emitPixel hdue hw (emitPixel_of_runAppend same fun _ => full)

/-! ### The bytes of the selected chunk -/

/-- The selector's chunk, encoded, is what R148 writes out. -/
theorem encode_selectChunk (cur prev entry : Word) : encode (selectChunk cur prev entry) = refChunk cur prev entry := by
  simp only [selectChunk, refChunk, Bool.and_eq_true, sameAlpha_iff, diffEligible_iff, lumaEligible_iff]
  split_ifs with hit hdiff hluma halpha
  · have hashByte := tag_append_ofNat tagIndex (pixelHash cur).isLt
    rw [BitVec.ofNat_toNat, BitVec.setWidth_eq] at hashByte
    exact congrArg ([·]) (hashByte.trans (congrArg (BitVec.ofNat 8) (Nat.zero_add _)))
  · obtain ⟨-, hr, hg, hb⟩ := hdiff
    exact congrArg ([·]) (diffByte_of_line hr hg hb)
  · obtain ⟨-, hg, hr, hb⟩ := hluma
    exact congrArg₂ ([·, ·]) (lumaByte_of_line hg) (lumaNibbles_of_line hr hb)
  · rfl
  · rfl

/-! The branches of R148's chunk formulas, each under the test that selects it. -/

section
variable {cur prev entry : Word}

theorem refChunk_of_hit (hit : entry = cur) : refChunk cur prev entry = [BitVec.ofNat 8 (pixelHash cur).toNat] :=
  if_pos hit

theorem refChunk_of_diff (miss : entry ≠ cur) (same : alpha cur = alpha prev) (small : diffEligible cur prev = true) :
    refChunk cur prev entry = [BitVec.ofInt 8
      (0x40 + (deltaR cur prev + 2) * 16 + (deltaG cur prev + 2) * 4 + (deltaB cur prev + 2))] := by
  rw [refChunk, if_neg miss, if_pos ⟨same, diffEligible_iff.1 small⟩]

theorem refChunk_of_luma (miss : entry ≠ cur) (same : alpha cur = alpha prev)
    (notSmall : ¬ diffEligible cur prev = true) (near : lumaEligible cur prev = true) :
    refChunk cur prev entry = [BitVec.ofInt 8 (0x80 + (deltaG cur prev + 32)), BitVec.ofInt 8
      ((deltaR cur prev - deltaG cur prev + 8) * 16 + (deltaB cur prev - deltaG cur prev + 8))] := by
  rw [refChunk, if_neg miss, if_neg fun h => notSmall (diffEligible_iff.2 h.2),
    if_pos ⟨same, lumaEligible_iff.1 near⟩]

theorem refChunk_of_far (miss : entry ≠ cur) (same : alpha cur = alpha prev)
    (notSmall : ¬ diffEligible cur prev = true) (notNear : ¬ lumaEligible cur prev = true) :
    refChunk cur prev entry = [0xFE, red cur, green cur, blue cur] := by
  rw [refChunk, if_neg miss, if_neg fun h => notSmall (diffEligible_iff.2 h.2),
    if_neg fun h => notNear (lumaEligible_iff.2 h.2), if_pos same]

theorem refChunk_of_alpha (miss : entry ≠ cur) (changed : alpha cur ≠ alpha prev) :
    refChunk cur prev entry = [0xFF, red cur, green cur, blue cur, alpha cur] := by
  rw [refChunk, if_neg miss, if_neg fun h => changed h.1, if_neg fun h => changed h.1, if_neg changed]

end

/-- A pixel other than `prev` appends what R148 writes out for it (R141 to R146). -/
theorem appendStep_of_ne {s : State} (hdue : s.pixelDue) (hw : s.str.wf = true) (differs : s.nextPixel ≠ s.prev) :
    AppendStep s s.nextPixel (refChunk s.nextPixel s.prev (s.idxRead (pixelHash s.nextPixel))) false :=
  appendStep_of_emitPixel hdue hw (encode_selectChunk .. ▸ emitPixel_of_ne differs)

/-- Settles O39, by R148's branch for a hit. -/
theorem encoderEmitsIndexOnHit : Obligations.EncoderEmitsIndexOnHit := by
  intro s hdue hw differs hit
  rw [← refChunk_of_hit (prev := s.prev) hit]
  exact appendStep_of_ne hdue hw differs

/-- Settles O40, by R148's branch for small deltas. -/
theorem encoderEmitsDiff : Obligations.EncoderEmitsDiff := by
  rintro s _ _ _ hdue hw differs miss same rfl rfl rfl small
  have emitted := appendStep_of_ne hdue hw differs
  rw [refChunk_of_diff miss same (diffEligible_iff.2 small)] at emitted
  exact emitted

/-- Settles O41, by R148's branch for near deltas. -/
theorem encoderEmitsLuma : Obligations.EncoderEmitsLuma := by
  rintro s _ _ _ hdue hw differs miss same rfl rfl rfl notSmall near
  have emitted := appendStep_of_ne hdue hw differs
  rw [refChunk_of_luma miss same (mt diffEligible_iff.1 notSmall) (lumaEligible_iff.2 near)] at emitted
  exact emitted

/-- Settles O42, by R148's branch for the remaining deltas. -/
theorem encoderEmitsRgb : Obligations.EncoderEmitsRgb := by
  rintro s _ _ _ hdue hw differs miss same rfl rfl rfl notSmall notNear
  have emitted := appendStep_of_ne hdue hw differs
  rwa [refChunk_of_far miss same (mt diffEligible_iff.1 notSmall) (mt lumaEligible_iff.1 notNear)] at emitted

/-- Settles O43, by R148's branch for a change of alpha. -/
theorem encoderEmitsRgba : Obligations.EncoderEmitsRgba := by
  intro s hdue hw differs miss changed
  rw [← refChunk_of_alpha miss changed]
  exact appendStep_of_ne hdue hw differs

/-! ### The end step -/

/-- Settles O44, from the two cases of the end step. -/
theorem encodeEndAppendsMarker : Obligations.EncodeEndAppendsMarker := by
  intro s hb ho hp hw
  rw [step_encEnd hb ho hp]
  rcases encEnd_cases s with ⟨room, e⟩ | ⟨full, e⟩ <;> rw [e]
  · obtain ⟨hlen, written, otherBytes⟩ := appended_effect endMarker hw
    exact ⟨fun _ => ⟨_, rfl, rfl, rfl, ⟨hlen, written, otherBytes⟩, rfl⟩, fun full => by simp [full] at room⟩
  · exact ⟨fun room => by simp [room] at full,
      fun _ => ⟨_, rfl, rfl, rfl, if_pos ho, (raiseError_of_enc ho .outOfCapacity s.outLen).1,
        raiseError_parameters _ _ _⟩⟩

end Sys2Proof.Machine

/-! SUPPORT. What a chunk is worth to the decoder: its pixel and its count, as functions of IDX and `prev`, the chunk
step in those terms, and the chunk the encoder selects. -/

namespace Sys2Proof.Machine

/-! ### The pixel and the count of a chunk -/

/-- The pixel a chunk gives a decoder with this index RAM and `prev` (R177 to R182). -/
def chunkPixel (idx : Vector Word 64) (prev : Word) : Instr → Word
  | .rgb r g b => pack r g b (alpha prev)
  | .rgba r g b a => pack r g b a
  | .index i => idx[i.toNat]'i.isLt
  | .diff fr fg fb => diffPixel prev fr fg fb
  | .luma fg frg fbg => lumaPixel prev fg frg fbg
  | .run _ => prev

/-- How many copies of its pixel a chunk emits (R182, R183). -/
def chunkCount : Instr → Nat
  | .run fr => runCount fr
  | .rgb _ _ _ | .rgba _ _ _ _ | .index _ | .diff _ _ _ | .luma _ _ _ => 1

theorem chunkCount_pos (i : Instr) : 1 ≤ chunkCount i := by
  cases i with
  | run fr => exact Nat.le_add_left 1 _
  | _ => exact le_rfl

/-- A due chunk that is well formed and within the input and the pixels owed emits its pixel, its count of times
(R177 to R183). -/
theorem exec_eq_emitChunk {i : Instr} {d : State} (hdue : d.chunkDue) (legal : i.wellFormed = true)
    (within : d.cursor + (encode i).length ≤ d.decLen) (owed : chunkCount i ≤ d.remaining) :
    exec i d = .next (d.emitChunk (encode i).length (chunkCount i) (chunkPixel d.idx d.prev i)) := by
  have single (length : Nat) (p : Word) (hl : d.cursor + length ≤ d.decLen) :
      d.whenChunkDue (d.whenFits length (.next (d.emitChunk length 1 p))) = .next (d.emitChunk length 1 p) := by
    rw [State.whenChunkDue_of_due hdue, State.whenFits_of_fits hl]
  cases i with
  | rgb r g b => exact single 4 _ within
  | rgba r g b a => exact single 5 _ within
  | luma fg frg fbg => exact single 2 _ within
  | index | diff => exact State.whenChunkDue_of_due hdue _
  | run fr =>
    have hlegal : ¬ 62 ≤ fr.toNat := by simpa [Instr.wellFormed] using legal
    have howed : ¬ d.remaining < runCount fr := not_lt.2 owed
    simp only [exec, execRun, State.whenChunkDue_of_due hdue, if_neg hlegal, if_neg howed]
    rfl

/-! ### The chunk the encoder selects -/

/-- Where alpha is unchanged the unwrapped deltas added back to `prev` give the pixel, whatever their size. -/
theorem addDeltas_delta {cur prev : Word} (same : alpha cur = alpha prev) :
    addDeltas prev (deltaR cur prev) (deltaG cur prev) (deltaB cur prev) = cur := by
  refine Word.ext_components ?_ ?_ ?_ ?_
  · rw [red_addDeltas, deltaR, addDelta_delta]
  · rw [green_addDeltas, deltaG, addDelta_delta]
  · rw [blue_addDeltas, deltaB, addDelta_delta]
  · rw [alpha_addDeltas, same]

/-- DIFF's biased deltas rebuild the pixel (R143, R180). -/
theorem diffPixel_rebias {cur prev : Word} (same : alpha cur = alpha prev) (small : diffEligible cur prev = true) :
    diffPixel prev (rebias 2 2 (deltaR cur prev)) (rebias 2 2 (deltaG cur prev)) (rebias 2 2 (deltaB cur prev))
      = cur := by
  obtain ⟨hr, hg, hb⟩ := diffEligible_iff.1 small
  have field {v : Int} (h : -2 ≤ v ∧ v ≤ 1) : unbias 2 (rebias 2 2 v) = v := unbias_rebias (by omega) (by omega)
  rw [diffPixel, field hr, field hg, field hb, addDeltas_delta same]

/-- LUMA's biased deltas rebuild the pixel (R144, R181). -/
theorem lumaPixel_rebias {cur prev : Word} (same : alpha cur = alpha prev) (near : lumaEligible cur prev = true) :
    lumaPixel prev (rebias 6 32 (deltaG cur prev)) (rebias 4 8 (deltaR cur prev - deltaG cur prev))
      (rebias 4 8 (deltaB cur prev - deltaG cur prev)) = cur := by
  obtain ⟨hg, hr, hb⟩ := lumaEligible_iff.1 near
  have field {v : Int} (h : -8 ≤ v ∧ v ≤ 7) : unbias 8 (rebias 4 8 v) = v := unbias_rebias (by omega) (by omega)
  have green : unbias 32 (rebias 6 32 (deltaG cur prev)) = deltaG cur prev := unbias_rebias (by omega) (by omega)
  rw [lumaPixel, field hr, field hb, green, sub_add_cancel, sub_add_cancel, addDeltas_delta same]

/-- The selected chunk gives the pixel it was selected for back (R187 (5)). -/
theorem chunkPixel_selectChunk (idx : Vector Word 64) (cur prev : Word) :
    chunkPixel idx prev (selectChunk cur prev (idx[(pixelHash cur).toNat]'(pixelHash cur).isLt)) = cur := by
  simp only [selectChunk, Bool.and_eq_true, sameAlpha_iff]
  split_ifs with hit diff luma same
  · exact hit
  · exact diffPixel_rebias diff.1 diff.2
  · exact lumaPixel_rebias luma.1 luma.2
  · rw [chunkPixel, ← same, pack_components]
  · exact pack_components cur

/-- The selected chunk exists on the wire and emits one pixel. -/
theorem selectChunk_single (cur prev entry : Word) :
    (selectChunk cur prev entry).wellFormed = true ∧ chunkCount (selectChunk cur prev entry) = 1 := by
  unfold selectChunk
  split_ifs <;> exact ⟨rfl, rfl⟩

/-- Settles O55: the selected chunk's pixel is the encoder's, and both update with it. -/
theorem selectedChunkRebuildsPixel : Obligations.SelectedChunkRebuildsPixel := by
  rintro e d cur i rfl hdue hprev hidx within
  have owed : 0 < d.remaining := hdue.2.2.2.1
  obtain ⟨legal, single⟩ := selectChunk_single cur e.prev (e.idxRead (pixelHash cur))
  have rebuilt : chunkPixel d.idx d.prev (selectChunk cur e.prev (e.idxRead (pixelHash cur))) = cur := by
    rw [hprev, hidx]; exact chunkPixel_selectChunk e.idx cur e.prev
  have run := exec_eq_emitChunk hdue legal within (by omega)
  rw [rebuilt, single] at run
  refine ⟨_, run, rfl, rfl, ?_, rfl, Nat.sub_add_cancel owed⟩
  rw [State.emitChunk_idx, State.update_idx, hidx]

end Sys2Proof.Machine

/-! SUPPORT. The encode of R148 and the step machine: the state in which the machine stands after some pixels, as a
function of R148's loop variables, and how a step moves it. -/

namespace Sys2Proof.Machine

/-! ### R148's loop -/

theorem bumpLast_concat (bs : List Byte) (b : Byte) : bumpLast (bs ++ [b]) = bs ++ [b + 1] := by
  induction bs with
  | nil => rfl
  | cons c bs ih =>
    cases bs with
    | nil => rfl
    | cons d bs => exact congrArg (c :: ·) ih

@[simp] theorem bumpLast_length (bs : List Byte) : (bumpLast bs).length = bs.length := by
  rcases List.eq_nil_or_concat' bs with rfl | ⟨init, b, rfl⟩
  · rfl
  · simp [bumpLast_concat]

/-- The loop variables with a new output and flag, after `Update(cur)` (R135, R148). -/
def EncLoop.after (v : EncLoop) (out : List Byte) (cur : Word) (runOpen : Bool) : EncLoop :=
  ⟨out, v.idx.set (pixelHash cur).toNat cur (pixelHash cur).isLt, cur, runOpen⟩

/-- The loop variables R148 begins with. -/
def EncLoop.initial (w h : Word) (c cs : Byte) : EncLoop :=
  ⟨headerBytes w h c cs, Vector.replicate 64 0, 0x000000FF, false⟩

section
variable {v : EncLoop} {cur : Word}

theorem refEncPixel_of_runAppend (same : cur = v.prev) (full : v.runOpen = true → v.out.getLast? = some 0xFD) :
    refEncPixel v cur = v.after (v.out ++ [0xC0]) cur true := by
  cases hopen : v.runOpen with
  | false => simp [refEncPixel, EncLoop.after, same, hopen]
  | true => simp [refEncPixel, EncLoop.after, same, hopen, full hopen]

theorem refEncPixel_of_runExtend (same : cur = v.prev) (hopen : v.runOpen = true)
    (notFull : v.out.getLast? ≠ some 0xFD) : refEncPixel v cur = v.after (bumpLast v.out) cur true := by
  rw [refEncPixel, if_pos same, if_neg (by simp [hopen]), if_pos notFull, EncLoop.after, hopen]

theorem refEncPixel_of_ne (differs : cur ≠ v.prev) : refEncPixel v cur =
    v.after (v.out ++ refChunk cur v.prev (v.idx[(pixelHash cur).toNat]'(pixelHash cur).isLt)) cur false := by
  simp [refEncPixel, EncLoop.after, differs]

/-- An iteration raises the last byte, appends 0xC0 or appends the chunk of a pixel that differs (R148). -/
theorem refEncPixel_cases (v : EncLoop) (cur : Word) :
    (cur = v.prev ∧ v.runOpen = true ∧ v.out.getLast? ≠ some 0xFD
      ∧ refEncPixel v cur = v.after (bumpLast v.out) cur true)
    ∨ (cur = v.prev ∧ (v.runOpen = true → v.out.getLast? = some 0xFD)
      ∧ refEncPixel v cur = v.after (v.out ++ [0xC0]) cur true)
    ∨ (cur ≠ v.prev ∧ refEncPixel v cur =
      v.after (v.out ++ refChunk cur v.prev (v.idx[(pixelHash cur).toNat]'(pixelHash cur).isLt)) cur false) := by
  by_cases same : cur = v.prev
  · by_cases full : v.runOpen = true → v.out.getLast? = some 0xFD
    · exact .inr (.inl ⟨same, full, refEncPixel_of_runAppend same full⟩)
    · obtain ⟨hopen, notFull⟩ := Classical.not_imp.1 full
      exact .inl ⟨same, hopen, notFull, refEncPixel_of_runExtend same hopen notFull⟩
  · exact .inr (.inr ⟨same, refEncPixel_of_ne same⟩)

/-- An iteration never shortens the output. -/
theorem length_le_refEncPixel (v : EncLoop) (cur : Word) : v.out.length ≤ (refEncPixel v cur).out.length := by
  rcases refEncPixel_cases v cur with ⟨-, -, -, e⟩ | ⟨-, -, e⟩ | ⟨-, e⟩ <;> rw [e, EncLoop.after]
  · exact (bumpLast_length _).ge
  · exact List.length_append ▸ Nat.le_add_right _ _
  · exact List.length_append ▸ Nat.le_add_right _ _

end

theorem length_le_refEncLoop (pixels : List Byte) (c n i : Nat) (v : EncLoop) :
    v.out.length ≤ (refEncLoop pixels c n i v).out.length := by
  induction n generalizing i v with
  | zero => exact le_rfl
  | succ n ih => exact (length_le_refEncPixel v _).trans (ih (i + 1) _)

/-- R148 with legal arguments: the loop's output with the end marker, if it fits. -/
theorem refEncode_of_legal {cap : Option Nat} {pixels : List Byte} {w h : Word} {c cs : Byte}
    (legal : ¬ ((c ≠ 3 ∧ c ≠ 4) ∨ 1 < cs.toNat ∨ pixels.length ≠ w.toNat * h.toNat * c.toNat)) {out : List Byte}
    (hout : out = (refEncLoop pixels c.toNat (w.toNat * h.toNat) 0 (.initial w h c cs)).out ++ endMarker) :
    refEncode cap pixels w h c cs = if fits cap out.length then .ok out else .error .outOfCapacity := by
  subst hout
  exact if_neg legal

/-! ### Pixels of a byte list -/

theorem Memory.readBytes_getD (m : Memory) (a : Nat) {n k : Nat} (hk : k < n) :
    (m.readBytes a n).getD k 0 = m.read (a + k) := by
  rw [List.getD_eq_getElem?_getD, Memory.readBytes_getElem? m a n k hk, Option.getD_some]

/-- R148 takes its pixels from the bytes as the machine takes them from PIX (R112). -/
theorem listPixel_readBytes (m : Memory) {i n : Nat} {c : Byte} (hc : c = 3 ∨ c = 4) (hi : (i + 1) * c.toNat ≤ n) :
    listPixel (m.readBytes 0 n) i c.toNat = loadPixel m i c := by
  have byte {k : Nat} (hk : k < c.toNat) : (m.readBytes 0 n).getD (i * c.toNat + k) 0 = m.read (i * c.toNat + k) := by
    rw [Nat.succ_mul] at hi
    rw [Memory.readBytes_getD m 0 (by omega), Nat.zero_add]
  rcases hc with rfl | rfl
  · exact congr (congr (congr (congrArg pack (byte (k := 0) (by decide))) (byte (k := 1) (by decide)))
      (byte (k := 2) (by decide))) rfl
  · exact congr (congr (congr (congrArg pack (byte (k := 0) (by decide))) (byte (k := 1) (by decide)))
      (byte (k := 2) (by decide))) (byte (k := 3) (by decide))

/-! ### The tail byte in memory -/

theorem Memory.write_write_same {m : Memory} (a : Nat) (u v : Byte) (h : m.wf = true) :
    (m.write a u).write a v = m.write a v := by
  have hu := Memory.write_wf a u h
  refine Memory.ext_of_wf (Memory.write_wf a v hu) (Memory.write_wf a v h) fun x => ?_
  rw [Memory.read_write a x v hu, Memory.read_write a x u h, Memory.read_write a x v h]
  split_ifs <;> rfl

theorem Memory.writeBytes_concat (m : Memory) (a : Nat) (bs : List Byte) (b : Byte) :
    m.writeBytes a (bs ++ [b]) = (m.writeBytes a bs).write (a + bs.length) b :=
  Memory.writeBytes_append m a bs [b]

/-- The tail byte is the last byte of the output (R44). -/
theorem Memory.read_last {m : Memory} (h : m.wf = true) {out : List Byte} (hne : out ≠ []) :
    out.getLast? = some ((m.writeBytes 0 out).read (out.length - 1)) := by
  rcases List.eq_nil_or_concat' out with rfl | ⟨bs, b, rfl⟩
  · exact absurd rfl hne
  · rw [Memory.writeBytes_concat, List.getLast?_concat, List.length_append, List.length_singleton,
      Nat.add_sub_cancel, Nat.zero_add, Memory.read_write_same _ _ (Memory.writeBytes_wf 0 bs h)]

/-- Raising the tail byte in memory raises the last byte of the output (R139, R148). -/
theorem Memory.raise_last {m : Memory} (h : m.wf = true) {out : List Byte} (hne : out ≠ []) :
    (m.writeBytes 0 out).write (out.length - 1) ((m.writeBytes 0 out).read (out.length - 1) + 1)
      = m.writeBytes 0 (bumpLast out) := by
  rcases List.eq_nil_or_concat' out with rfl | ⟨bs, b, rfl⟩
  · exact absurd rfl hne
  · have hbs := Memory.writeBytes_wf 0 bs h
    rw [bumpLast_concat, Memory.writeBytes_concat, Memory.writeBytes_concat, List.length_append,
      List.length_singleton, Nat.add_sub_cancel, Nat.zero_add, Memory.read_write_same _ _ hbs,
      Memory.write_write_same _ _ _ hbs]

/-! ### The machine at a pixel -/

/-- The encode started in `s` with `i` pixels consumed, R148's loop variables being `v`. -/
def State.atPixel (s : State) (i : Nat) (v : EncLoop) (cur : Word) : State :=
  { s with
    str := s.str.writeBytes 0 v.out, outLen := v.out.length, idx := v.idx, prev := v.prev, runOpen := v.runOpen
    pxPos := i, cur := cur, encOutLen := 0, phase := s.encPhase i }

/-- The start step reaches the initial loop variables (R132, R148). -/
theorem encStart_eq_atPixel {s : State} (args : s.encArgsOk = true) (room : fits s.cfg.outCap 14 = true) :
    encStart s = s.atPixel 0 (.initial s.encWidth s.encHeight s.encChannels s.encColorspace) s.cur := by
  rcases encStart_of_ok args with ⟨-, e⟩ | ⟨full, -⟩
  · exact e
  · simp [full] at room

section
variable {s : State} {i : Nat} {v : EncLoop} {cur : Word}

/-- A pixel step is due while pixels are left and the output is not empty. -/
theorem pixelDue_atPixel (hb : s.status = .busy) (ho : s.op = .enc) (hch : s.encChannels = 3 ∨ s.encChannels = 4)
    (hi : i < s.encPixels) (hne : v.out ≠ []) : (s.atPixel i v cur).pixelDue :=
  ⟨hb, ho, if_pos hi, hi, hch, fun _ => List.length_pos_iff.2 hne⟩

/-- The machine's append of `bs` is that of R148. -/
theorem finishPixel_atPixel_appended (b : Bool) (bs : List Byte) :
    (((s.atPixel i v cur).fetchPixel.setRunOpen b).appended bs).finishPixel
      = s.atPixel (i + 1) (v.after (v.out ++ bs) (loadPixel s.pix i s.encChannels) b)
          (loadPixel s.pix i s.encChannels) := by
  have written := Memory.writeBytes_append s.str 0 v.out bs
  rw [Nat.zero_add] at written
  simp only [State.atPixel, EncLoop.after, written, List.length_append]
  rfl

/-- The machine's raise of the tail byte is that of R148. -/
theorem finishPixel_atPixel_raised (hw : s.str.wf = true) (hopen : v.runOpen = true) (hne : v.out ≠ []) :
    (s.atPixel i v cur).fetchPixel.raiseTail.finishPixel
      = s.atPixel (i + 1) (v.after (bumpLast v.out) (loadPixel s.pix i s.encChannels) true)
          (loadPixel s.pix i s.encChannels) := by
  simp only [State.atPixel, EncLoop.after, bumpLast_length, ← hopen, ← Memory.raise_last hw hne]
  rfl

/-- A pixel step whose emission is an append of `bs` does what R148 does with `bs`, unless they do not fit. -/
theorem encPixel_atPixel_of_append {b : Bool} {bs : List Byte}
    (emits : (s.atPixel i v cur).fetchPixel.emitPixel = ((s.atPixel i v cur).fetchPixel.setRunOpen b).append bs) :
    encPixel (s.atPixel i v cur) = s.atPixel (i + 1) (v.after (v.out ++ bs) (loadPixel s.pix i s.encChannels) b)
      (loadPixel s.pix i s.encChannels)
    ∨ (fits s.cfg.outCap (v.out ++ bs).length = false
      ∧ encPixel (s.atPixel i v cur) = (s.atPixel i v cur).raiseError .outOfCapacity v.out.length) := by
  rw [List.length_append]
  cases room : fits s.cfg.outCap (v.out.length + bs.length) with
  | true => exact .inl ((encPixel_of_append_fits emits room).trans (finishPixel_atPixel_appended b bs))
  | false => exact .inr ⟨rfl, encPixel_of_append_full emits room⟩

/-- The commuting square of a pixel: the machine reaches the loop variables of R148's iteration, unless their output
does not fit. -/
theorem encPixel_atPixel (hw : s.str.wf = true) (hne : v.out ≠ []) :
    encPixel (s.atPixel i v cur) = s.atPixel (i + 1) (refEncPixel v (loadPixel s.pix i s.encChannels))
      (loadPixel s.pix i s.encChannels)
    ∨ (fits s.cfg.outCap (refEncPixel v (loadPixel s.pix i s.encChannels)).out.length = false
      ∧ encPixel (s.atPixel i v cur) = (s.atPixel i v cur).raiseError .outOfCapacity v.out.length) := by
  have tail : v.out.getLast? = some (s.atPixel i v cur).tailByte := Memory.read_last hw hne
  rcases refEncPixel_cases v (loadPixel s.pix i s.encChannels)
    with ⟨same, hopen, notFull, e⟩ | ⟨same, full, e⟩ | ⟨differs, e⟩ <;> rw [e]
  · rw [tail, ne_eq, Option.some_inj] at notFull
    exact .inl ((encPixel_of_runExtend (s := s.atPixel i v cur) same hopen notFull).trans
      (finishPixel_atPixel_raised hw hopen hne))
  · rw [tail, Option.some_inj] at full
    exact encPixel_atPixel_of_append (emitPixel_of_runAppend (s := s.atPixel i v cur) same full)
  · refine encPixel_atPixel_of_append ((emitPixel_of_ne (s := s.atPixel i v cur) differs).trans ?_)
    exact congrArg _ (encode_selectChunk ..)

/-! ### The run of an encode -/

/-- An error ends the operation (R222). -/
theorem raiseError_halted (s : State) (k : ErrorKind) (n : Nat) : (s.raiseError k n).halted :=
  fun h : Status.error = .busy => by cases h

/-- What is too long for a capacity stays so when it grows. -/
theorem not_fits_of_le {cap : Option Nat} {m n : Nat} (h : fits cap m = false) (hle : m ≤ n) : fits cap n = false :=
  Bool.eq_false_iff.2 fun room => by simp [fits_of_le room hle] at h

/-- How an encode started in `s` ends in `t` when its whole stream is `out`. -/
structure EncodeEnds (s t : State) (out : List Byte) : Prop where
  stream : fits s.cfg.outCap out.length = true →
    t.status = .done ∧ t.encOutLen = out.length ∧ t.str = s.str.writeBytes 0 out
  full : fits s.cfg.outCap out.length = false →
    t.status = .error ∧ t.err = ErrorKind.outOfCapacity.code ∧ t.encOutLen = 0

/-- An encode that runs out of room ends in `OutOfCapacity`. -/
theorem encodeEnds_of_full {t : State} {out : List Byte} (n : Nat) (ho : t.op = .enc)
    (full : fits s.cfg.outCap out.length = false) : EncodeEnds s (t.raiseError .outOfCapacity n) out :=
  ⟨fun room => by simp [full] at room, fun _ => ⟨rfl, rfl, if_pos ho⟩⟩

/-- The end step with all pixels consumed (R147). -/
theorem encodeEnds_encEnd (ho : s.op = .enc) : EncodeEnds s (encEnd (s.atPixel i v cur)) (v.out ++ endMarker) := by
  rcases encEnd_cases (s.atPixel i v cur) with ⟨room, e⟩ | ⟨full, e⟩ <;> rw [e]
  · refine ⟨fun _ => ⟨rfl, List.length_append.symm, ?_⟩, fun full => ?_⟩
    · have written := Memory.writeBytes_append s.str 0 v.out endMarker
      rw [Nat.zero_add] at written
      exact written.symm
    · rw [List.length_append] at full
      exact absurd (full.symm.trans room) (by decide)
  · exact encodeEnds_of_full _ ho (by rw [List.length_append]; exact full)

/-- From pixel `i` on the machine runs R148's loop and the end step. -/
theorem runSteps_atPixel {pixels : List Byte} (hb : s.status = .busy) (ho : s.op = .enc)
    (hch : s.encChannels = 3 ∨ s.encChannels = 4) (hw : s.str.wf = true)
    (hpixels : ∀ j, j < s.encPixels → listPixel pixels j s.encChannels.toNat = loadPixel s.pix j s.encChannels)
    (n : Nat) (hn : i + n = s.encPixels) (hne : v.out ≠ []) :
    ∃ t, runSteps (n + 1) (s.atPixel i v cur) = .next t
      ∧ EncodeEnds s t ((refEncLoop pixels s.encChannels.toNat n i v).out ++ endMarker) := by
  induction n generalizing i v cur with
  | zero =>
    have fin : (s.atPixel i v cur).phase = .fin := if_neg (by omega)
    rw [runSteps_of_step (step_encEnd (s := s.atPixel i v cur) hb ho fin)]
    exact ⟨_, rfl, encodeEnds_encEnd ho⟩
  | succ n ih =>
    have hi : i < s.encPixels := by omega
    have longer := length_le_refEncPixel v (loadPixel s.pix i s.encChannels)
    rw [runSteps_of_step (step_encBody_of_due (pixelDue_atPixel hb ho hch hi hne)), refEncLoop, hpixels i hi]
    rcases encPixel_atPixel (i := i) (cur := cur) hw hne with e | ⟨full, e⟩ <;> rw [e]
    · exact ih (by omega) (List.length_pos_iff.1 ((List.length_pos_iff.2 hne).trans_le longer))
    · rw [runSteps_of_halted (raiseError_halted _ _ _)]
      refine ⟨_, rfl, encodeEnds_of_full _ ho (not_fits_of_le full ?_)⟩
      rw [List.length_append]
      exact (length_le_refEncLoop ..).trans (Nat.le_add_right _ _)

end

/-- A started encode with legal arguments ends as R148's stream says. -/
theorem runSteps_encStarted {s : State} (hb : s.status = .busy) (ho : s.op = .enc) (hp : s.phase = .start)
    (hw : s.str.wf = true) (args : s.encArgsOk = true) :
    ∃ t, runSteps (2 + s.encWidth.toNat * s.encHeight.toNat) s = .next t
      ∧ EncodeEnds s t ((refEncLoop (s.pix.readBytes 0 s.encPixLen) s.encChannels.toNat
          (s.encWidth.toNat * s.encHeight.toNat) 0
          (.initial s.encWidth s.encHeight s.encChannels s.encColorspace)).out ++ endMarker) := by
  obtain ⟨hch, -, hlen⟩ := (encArgsOk_iff s).1 args
  rw [show 2 + s.encWidth.toNat * s.encHeight.toNat = s.encPixels + 1 + 1 from Nat.add_comm _ _,
    runSteps_of_step (step_encStart hb ho hp)]
  cases room : fits s.cfg.outCap 14 with
  | true =>
    rw [encStart_eq_atPixel args room]
    have within {j : Nat} (hj : j < s.encPixels) : (j + 1) * s.encChannels.toNat ≤ s.encPixLen :=
      hlen ▸ Nat.mul_le_mul_right _ hj
    exact runSteps_atPixel hb ho hch hw (fun j hj => listPixel_readBytes _ hch (within hj)) _ (Nat.zero_add _)
      (List.cons_ne_nil _ _)
  | false =>
    rcases encStart_of_ok args with ⟨room', -⟩ | ⟨-, e⟩
    · simp [room] at room'
    · rw [e, runSteps_of_halted (raiseError_halted _ _ _)]
      refine ⟨_, rfl, encodeEnds_of_full _ ho (not_fits_of_le room ?_)⟩
      rw [List.length_append]
      exact (length_le_refEncLoop _ _ _ 0 (.initial s.encWidth s.encHeight s.encChannels s.encColorspace)).trans
        (Nat.le_add_right _ _)

/-- Settles O56: the argument check is R148's, and with legal arguments the machine runs its loop. -/
theorem encodeMatchesReference : Obligations.EncodeMatchesReference := by
  intro s hb ho hp hw
  cases args : s.encArgsOk with
  | false =>
    rw [show 2 + s.encWidth.toNat * s.encHeight.toNat = s.encPixels + 1 + 1 from Nat.add_comm _ _,
      runSteps_of_step (step_encStart hb ho hp), encStart_of_bad args, runSteps_of_halted (raiseError_halted _ _ _),
      refEncode, if_pos (by rw [Memory.readBytes_length]; exact (encArgsOk_eq_false_iff s).1 args)]
    exact ⟨_, rfl, rfl, rfl, if_pos ho⟩
  | true =>
    obtain ⟨t, run, ends⟩ := runSteps_encStarted hb ho hp hw args
    refine ⟨t, run, ?_⟩
    rw [refEncode_of_legal (by rw [Memory.readBytes_length, ← encArgsOk_eq_false_iff, args]; simp) rfl]
    cases room : fits s.cfg.outCap _ with
    | true =>
      obtain ⟨done, hlen, hstr⟩ := ends.stream room
      refine ⟨done, hlen, hstr ▸ Memory.readBytes_writeBytes 0 _ hw, fun a ha => ?_⟩
      rw [hstr, Memory.read_writeBytes_outside _ _ (.inr (by rwa [Nat.zero_add]))]
    | false => exact ends.full room

end Sys2Proof.Machine

/-! SUPPORT. What R148's output holds: the bytes of a list of chunks that, played in order, give the pixels back; and
its length. -/

namespace Sys2Proof.Machine

/-! ### Chunks played in order -/

/-- What a decoder has rebuilt so far: the pixels, the index RAM and `prev`. -/
structure Playback where
  pixels : List Word
  idx : Vector Word 64
  prev : Word

/-- Nothing rebuilt, IDX and `prev` as an operation starts (R175). -/
def Playback.initial : Playback := ⟨[], clearedIdx, initialPrev⟩

/-- One more pixel, with its update (R117). -/
def Playback.push (b : Playback) (p : Word) : Playback :=
  ⟨b.pixels ++ [p], b.idx.set (pixelHash p).toNat p (pixelHash p).isLt, p⟩

/-- One chunk: its pixel, its count of times, with one update (R183). -/
def Playback.play (b : Playback) (i : Instr) : Playback :=
  ⟨b.pixels ++ List.replicate (chunkCount i) (chunkPixel b.idx b.prev i),
    b.idx.set (pixelHash (chunkPixel b.idx b.prev i)).toNat (chunkPixel b.idx b.prev i) (pixelHash _).isLt,
    chunkPixel b.idx b.prev i⟩

/-- The chunks of a stream played from the start of a decode. -/
def playback (chunks : List Instr) : Playback := chunks.foldl Playback.play .initial

theorem playback_concat (chunks : List Instr) (i : Instr) : playback (chunks ++ [i]) = (playback chunks).play i :=
  List.foldl_concat ..

/-- A chunk that emits one pixel pushes it. -/
theorem Playback.play_single (b : Playback) {i : Instr} (single : chunkCount i = 1) :
    b.play i = b.push (chunkPixel b.idx b.prev i) := by
  rw [Playback.play, single]; rfl

/-- A RUN of one more is the RUN and its pixel once more: the second update changes nothing. -/
theorem Playback.play_run_succ (b : Playback) {fr : BitVec 6} (hfr : fr.toNat < 63) :
    b.play (.run (fr + 1)) = (b.play (.run fr)).push b.prev := by
  have count : chunkCount (.run (fr + 1)) = chunkCount (.run fr) + 1 := by
    simp only [chunkCount, runCount, BitVec.toNat_add, show (1 : BitVec 6).toNat = 1 from rfl]
    omega
  simp only [Playback.play, Playback.push, chunkPixel, count, List.replicate_succ', List.append_assoc, Vector.set_set]

/-- Every chunk played gives at least one pixel. -/
theorem length_le_foldl_play (chunks : List Instr) (b : Playback) :
    b.pixels.length + chunks.length ≤ (chunks.foldl Playback.play b).pixels.length := by
  induction chunks generalizing b with
  | nil => exact le_rfl
  | cons i chunks ih =>
    refine le_trans ?_ (ih (b.play i))
    have := chunkCount_pos i
    simp only [Playback.play, List.length_append, List.length_replicate, List.length_cons]
    omega

/-! ### The chunks in R148's output -/

/-- R148's loop variables hold a header and the bytes of `chunks`, which give `pixels`, IDX and `prev` when played. -/
structure Emitted (v : EncLoop) (header : List Byte) (pixels : List Word) (chunks : List Instr) : Prop where
  legal : ∀ i ∈ chunks, i.wellFormed = true
  out : v.out = header ++ chunks.flatMap encode
  played : playback chunks = ⟨pixels, v.idx, v.prev⟩
  /-- The invariant of R30. -/
  openRun : v.runOpen = true → ∃ before fr, chunks = before ++ [.run fr]

section
variable {v : EncLoop} {header : List Byte} {pixels : List Word} {chunks : List Instr} {cur : Word}

/-- A chunk that gives the pixel back is appended. -/
theorem Emitted.append (h : Emitted v header pixels chunks) {i : Instr} (legal : i.wellFormed = true)
    (single : chunkCount i = 1) (rebuilt : chunkPixel v.idx v.prev i = cur) {b : Bool}
    (run : b = true → ∃ fr, i = .run fr) :
    Emitted (v.after (v.out ++ encode i) cur b) header (pixels ++ [cur]) (chunks ++ [i]) where
  legal := by simpa [or_imp, forall_and] using ⟨h.legal, legal⟩
  out := by simp [EncLoop.after, h.out]
  played := by rw [playback_concat, Playback.play_single _ single, h.played, rebuilt]; rfl
  openRun hb := by
    obtain ⟨fr, rfl⟩ := run hb
    exact ⟨chunks, fr, rfl⟩

/-- A RUN byte raised by 1 is the RUN of one more (R139). -/
theorem runByte_add_one {fr : BitVec 6} (h : fr.toNat < 63) : tagRun ++ fr + 1 = tagRun ++ (fr + 1) := by
  apply BitVec.eq_of_toNat_eq
  simp only [append_toNat, BitVec.toNat_add, show (1 : BitVec 6).toNat = 1 from rfl,
    show (1 : BitVec (2 + 6)).toNat = 1 from rfl, show tagRun.toNat = 3 from rfl]
  omega

/-- The open run is extended by the pixel. -/
theorem Emitted.extend (h : Emitted v header pixels chunks) (same : cur = v.prev) (hopen : v.runOpen = true)
    (notFull : v.out.getLast? ≠ some 0xFD) :
    ∃ chunks', Emitted (v.after (bumpLast v.out) cur true) header (pixels ++ [cur]) chunks' := by
  obtain ⟨before, fr, rfl⟩ := h.openRun hopen
  have out : v.out = header ++ before.flatMap encode ++ [tagRun ++ fr] := by simp [h.out, encode]
  have legal : fr.toNat < 62 := of_decide_eq_true (h.legal (.run fr) (by simp))
  have below : fr.toNat ≠ 61 := by
    rintro e
    obtain rfl : fr = 61 := BitVec.eq_of_toNat_eq e
    exact notFull (by rw [out, List.getLast?_concat]; rfl)
  have played := h.played
  rw [playback_concat] at played
  have prev : (playback before).prev = v.prev := congrArg Playback.prev played
  refine ⟨before ++ [.run (fr + 1)], ?_, ?_, ?_, fun _ => ⟨before, fr + 1, rfl⟩⟩
  · have before_legal : ∀ i ∈ before, i.wellFormed = true := fun i hi => h.legal i (by simp [hi])
    have succ_legal : (Instr.run (fr + 1)).wellFormed = true := by
      simp only [Instr.wellFormed, decide_eq_true_eq, BitVec.toNat_add, show (1 : BitVec 6).toNat = 1 from rfl]
      omega
    simpa [or_imp, forall_and] using ⟨before_legal, succ_legal⟩
  · rw [EncLoop.after, out, bumpLast_concat, runByte_add_one (by omega)]
    simp [encode]
  · rw [playback_concat, Playback.play_run_succ _ (by omega), played, prev, same]
    rfl

/-- An iteration of R148's loop keeps the output a list of chunks that gives the pixels back (R187 (5)). -/
theorem emitted_refEncPixel (h : Emitted v header pixels chunks) (cur : Word) :
    ∃ chunks', Emitted (refEncPixel v cur) header (pixels ++ [cur]) chunks' := by
  rcases refEncPixel_cases v cur with ⟨same, hopen, notFull, e⟩ | ⟨same, -, e⟩ | ⟨-, e⟩ <;> rw [e]
  · exact h.extend same hopen notFull
  · exact ⟨_, h.append (i := .run 0) rfl rfl same.symm fun _ => ⟨0, rfl⟩⟩
  · obtain ⟨legal, single⟩ :=
      selectChunk_single cur v.prev (v.idx[(pixelHash cur).toNat]'(pixelHash cur).isLt)
    rw [← encode_selectChunk]
    exact ⟨_, h.append legal single (chunkPixel_selectChunk v.idx cur v.prev) fun hb => by cases hb⟩

/-- The loop emits chunks that give its pixels back. -/
theorem emitted_refEncLoop (h : Emitted v header pixels chunks) (bytes : List Byte) (c n i : Nat) :
    ∃ chunks', Emitted (refEncLoop bytes c n i v) header
      (pixels ++ (List.range' i n).map fun j => listPixel bytes j c) chunks' := by
  induction n generalizing i v pixels chunks with
  | zero => exact ⟨chunks, by simpa [refEncLoop] using h⟩
  | succ n ih =>
    obtain ⟨chunks', h'⟩ := emitted_refEncPixel h (listPixel bytes i c)
    obtain ⟨chunks'', h''⟩ := ih h' (i + 1)
    exact ⟨chunks'', by simpa [refEncLoop, List.range'_succ] using h''⟩

end

theorem emitted_initial (w h : Word) (c cs : Byte) :
    Emitted (.initial w h c cs) (headerBytes w h c cs) [] [] :=
  ⟨by simp, by simp [EncLoop.initial], rfl, fun h => by cases h⟩

/-! ### The length of R148's output -/

/-- An iteration appends at most `c + 1` bytes: with 3 channels alpha never changes, so it is never RGBA (R151). -/
theorem refEncPixel_length_le {v : EncLoop} {cur : Word} {c : Nat} (hc : c = 3 ∨ c = 4)
    (same : c = 3 → alpha cur = alpha v.prev) : (refEncPixel v cur).out.length ≤ v.out.length + (c + 1) := by
  obtain ⟨h5, h4⟩ := selectChunk_length cur v.prev (v.idx[(pixelHash cur).toNat]'(pixelHash cur).isLt)
  rw [encode_selectChunk] at h5 h4
  rcases refEncPixel_cases v cur with ⟨-, -, -, e⟩ | ⟨-, -, e⟩ | ⟨-, e⟩ <;> rw [e, EncLoop.after]
  · simp
  · simp
  · rw [List.length_append]
    rcases hc with rfl | rfl
    · exact Nat.add_le_add_left (h4 (same rfl)) _
    · exact Nat.add_le_add_left h5 _

/-- With 3 channels the pixels of a byte list are opaque (R112). -/
theorem alpha_listPixel_three (bytes : List Byte) (i : Nat) : alpha (listPixel bytes i 3) = 255 := by
  simp [listPixel]

/-- The loop appends at most `c + 1` bytes a pixel (R151). -/
theorem refEncLoop_length_le (bytes : List Byte) {c : Nat} (hc : c = 3 ∨ c = 4) (n i : Nat) {v : EncLoop}
    (opaquePrev : c = 3 → alpha v.prev = 255) :
    (refEncLoop bytes c n i v).out.length ≤ v.out.length + n * (c + 1) := by
  induction n generalizing i v with
  | zero => exact Nat.le_add_right _ _
  | succ n ih =>
    have opaqueCur : c = 3 → alpha (listPixel bytes i c) = 255 := by
      rintro rfl; exact alpha_listPixel_three bytes i
    have pixel := refEncPixel_length_le (v := v) hc fun h3 => (opaqueCur h3).trans (opaquePrev h3).symm
    have rest := ih (i + 1) (v := refEncPixel v (listPixel bytes i c)) opaqueCur
    rw [Nat.succ_mul, refEncLoop]
    omega

end Sys2Proof.Machine

/-! SUPPORT. A decode of a stream made of chunks: the state after some of them as a function of what they play, and the
round trip. -/

namespace Sys2Proof.Machine

/-! ### The chunk at the cursor -/

/-- The chunk whose bytes stand at `cursor` is what a body step of a decode runs (R170, R176). -/
theorem step_of_bytesAtCursor {i : Instr} {d : State} (legal : i.wellFormed = true) (hb : d.status = .busy)
    (ho : d.op = .dec) (hp : d.phase = .body) (within : d.cursor + (encode i).length ≤ d.decLen)
    (bytes : d.str.readBytes d.cursor (encode i).length = encode i) : step d = exec i d := by
  have hlen := (encode_length i).2
  have window : d.fetchWindow = encode i ++ d.str.readBytes (d.cursor + (encode i).length)
      (min maxChunkLength (d.decLen - d.cursor) - (encode i).length) := by
    have split : min maxChunkLength (d.decLen - d.cursor)
        = (encode i).length + (min maxChunkLength (d.decLen - d.cursor) - (encode i).length) := by omega
    rw [State.fetchWindow, split, Memory.readBytes_add, bytes, ← split]
  rw [step_decBody hb ho hp, decBody, State.fetchChunk, window, decodeUndoesEncode i _ legal]

/-! ### Pixels in PIX -/

theorem flatMap_pixelBytes_length {c : Byte} (hc : c = 3 ∨ c = 4) (ps : List Word) :
    (ps.flatMap (pixelBytes c)).length = ps.length * c.toNat := by
  simp [List.length_flatMap, pixelBytes_length _ hc]

/-- Stored pixels are their bytes written in a row (R116). -/
theorem storePixels_eq_writeBytes {c : Byte} (hc : c = 3 ∨ c = 4) (w : Word) (n a : Nat) (m : Memory) :
    storePixels c w n a m = m.writeBytes a ((List.replicate n w).flatMap (pixelBytes c)) := by
  induction n generalizing a m with
  | zero => rfl
  | succ n ih =>
    rw [storePixels, ih, List.replicate_succ, List.flatMap_cons, Memory.writeBytes_append, pixelBytes_length w hc,
      storePixel]

/-- The bytes of a pixel fetched are the bytes it was fetched from (R112). -/
theorem pixelBytes_loadPixel (m : Memory) (i : Nat) {c : Byte} (hc : c = 3 ∨ c = 4) :
    pixelBytes c (loadPixel m i c) = m.readBytes (i * c.toNat) c.toNat := by
  rcases hc with rfl | rfl
  · rw [loadPixel_three, pixelBytes, if_neg (by decide), red_pack, green_pack, blue_pack]; rfl
  · rw [loadPixel_four, pixelBytes, if_pos rfl, red_pack, green_pack, blue_pack, alpha_pack]; rfl

/-- The pixels of an image in order hold every byte of it. -/
theorem flatMap_loadPixel (m : Memory) (n : Nat) {c : Byte} (hc : c = 3 ∨ c = 4) :
    ((List.range n).map fun i => loadPixel m i c).flatMap (pixelBytes c) = m.readBytes 0 (n * c.toNat) := by
  induction n with
  | zero => simp [Memory.readBytes]
  | succ n ih =>
    rw [List.range_succ, List.map_append, List.flatMap_append, ih, Nat.succ_mul, Memory.readBytes_add, Nat.zero_add]
    simp [pixelBytes_loadPixel m n hc]

/-! ### The machine at a chunk -/

/-- The decode whose header is parsed in `s`, standing at `cursor` with `b` rebuilt. -/
def State.atChunk (s : State) (b : Playback) (cursor : Nat) (cur : Word) : State :=
  { s with
    idx := b.idx, prev := b.prev, cur := cur, cursor := cursor, remaining := s.decPixels - b.pixels.length
    pix := s.pix.writeBytes 0 (b.pixels.flatMap (pixelBytes s.decChannels))
    pixWr := b.pixels.length * s.decChannels.toNat, decPixLen := 0
    phase := chunkPhase (s.decPixels - b.pixels.length) }

/-- The initialisation of R175 stands at the first chunk with nothing rebuilt. -/
theorem decInit_eq_atChunk (s : State) : s.decInit = s.atChunk .initial 14 s.cur := by
  simp [State.atChunk, State.decInit, Playback.initial, Memory.writeBytes]

section
variable {s : State} {b : Playback} {cursor : Nat} {cur : Word}

/-- A chunk's effect is that of playing it. -/
theorem emitChunk_atChunk (hch : s.decChannels = 3 ∨ s.decChannels = 4) (i : Instr) :
    (s.atChunk b cursor cur).emitChunk (encode i).length (chunkCount i) (chunkPixel b.idx b.prev i)
      = s.atChunk (b.play i) (cursor + (encode i).length) (chunkPixel b.idx b.prev i) := by
  have stored : storePixels s.decChannels (chunkPixel b.idx b.prev i) (chunkCount i)
      (b.pixels.length * s.decChannels.toNat) (s.pix.writeBytes 0 (b.pixels.flatMap (pixelBytes s.decChannels)))
      = s.pix.writeBytes 0 ((b.play i).pixels.flatMap (pixelBytes s.decChannels)) := by
    rw [storePixels_eq_writeBytes hch, Playback.play, List.flatMap_append, Memory.writeBytes_append,
      flatMap_pixelBytes_length hch, Nat.zero_add]
  have count : (b.play i).pixels.length = b.pixels.length + chunkCount i := by simp [Playback.play]
  simp only [State.atChunk, ← stored, count, ← Nat.sub_sub, Nat.add_mul]
  rfl

/-- The commuting square of a chunk within the input and the pixels owed. -/
theorem step_atChunk (hb : s.status = .busy) (ho : s.op = .dec) (hch : s.decChannels = 3 ∨ s.decChannels = 4)
    {i : Instr} (legal : i.wellFormed = true) (within : cursor + (encode i).length ≤ s.decLen)
    (bytes : s.str.readBytes cursor (encode i).length = encode i)
    (owed : (b.play i).pixels.length ≤ s.decPixels) :
    step (s.atChunk b cursor cur)
      = .next (s.atChunk (b.play i) (cursor + (encode i).length) (chunkPixel b.idx b.prev i)) := by
  have pos := chunkCount_pos i
  simp only [Playback.play, List.length_append, List.length_replicate] at owed
  have left : 0 < (s.atChunk b cursor cur).remaining := show 0 < s.decPixels - b.pixels.length by omega
  have body : (s.atChunk b cursor cur).phase = .body := if_pos left
  have count : chunkCount i ≤ (s.atChunk b cursor cur).remaining :=
    show chunkCount i ≤ s.decPixels - b.pixels.length by omega
  have due : (s.atChunk b cursor cur).chunkDue := ⟨hb, ho, body, left, hch⟩
  rw [step_of_bytesAtCursor (d := s.atChunk b cursor cur) legal hb ho body within bytes,
    exec_eq_emitChunk due legal within count, ← emitChunk_atChunk hch]
  rfl

theorem decEnd_of_accepted {d : State} (accepted : d.decStrict = true → d.strictEndOk = true) :
    decEnd d = d.finishDecode := by
  refine if_neg fun h => ?_
  rw [Bool.and_eq_true] at h
  simp [accepted h.1] at h

/-- A stream of chunks that give all pixels owed, then the end marker, is decoded to the end. -/
theorem runSteps_atChunk (hb : s.status = .busy) (ho : s.op = .dec) (hch : s.decChannels = 3 ∨ s.decChannels = 4)
    {chunks : List Instr} (legal : ∀ i ∈ chunks, i.wellFormed = true)
    (hlen : s.decLen = cursor + (chunks.flatMap encode ++ endMarker).length)
    (stream : s.str.readBytes cursor (chunks.flatMap encode ++ endMarker).length = chunks.flatMap encode ++ endMarker)
    (whole : (chunks.foldl Playback.play b).pixels.length = s.decPixels) :
    ∃ cursor' cur', runSteps (chunks.length + 1) (s.atChunk b cursor cur)
      = .next (s.atChunk (chunks.foldl Playback.play b) cursor' cur').finishDecode := by
  induction chunks generalizing b cursor cur with
  | nil =>
    have fin : (s.atChunk b cursor cur).phase = .fin := if_neg (by rw [List.foldl_nil] at whole; omega)
    have ended : (s.atChunk b cursor cur).strictEndOk = true := (strictEndOk_iff _).2 ⟨hlen, stream⟩
    refine ⟨cursor, cur, ?_⟩
    rw [runSteps_of_step (step_decEnd (s := s.atChunk b cursor cur) hb ho fin), decEnd_of_accepted fun _ => ended]
    rfl
  | cons i chunks ih =>
    rw [List.flatMap_cons, List.append_assoc, List.length_append] at hlen stream
    rw [Memory.readBytes_add] at stream
    obtain ⟨bytes, rest⟩ := List.append_inj stream (Memory.readBytes_length ..)
    have owed := whole ▸ (Nat.le_add_right _ _).trans (length_le_foldl_play chunks (b.play i))
    rw [List.length_cons,
      runSteps_of_step (step_atChunk hb ho hch (legal i (List.mem_cons_self ..)) (by omega) bytes owed)]
    exact ih (fun j hj => legal j (List.mem_cons_of_mem i hj)) (by omega) rest whole

end

/-! ### The whole decode -/

/-- The fields of a header in memory (R81). -/
theorem header_fields {m : Memory} {w h : Word} {c cs : Byte} (header : m.readBytes 0 14 = headerBytes w h c cs) :
    m.readBytes 0 4 = magic ∧ m.readBytes 4 8 = be32Bytes w ++ be32Bytes h ∧ m.read 12 = c ∧ m.read 13 = cs := by
  rw [show 14 = 4 + (8 + 2) from rfl, Memory.readBytes_add, Memory.readBytes_add, headerBytes, List.append_assoc,
    List.append_assoc, ← List.append_assoc (be32Bytes w)] at header
  obtain ⟨hmagic, header⟩ := List.append_inj header rfl
  obtain ⟨dims, header⟩ := List.append_inj header rfl
  simp only [Memory.readBytes, List.cons.injEq] at header
  obtain ⟨hc, hcs, -⟩ := header
  exact ⟨hmagic, dims, hc, hcs⟩

/-- A legal header passes the checks of the start step (R171 to R175). -/
theorem decHeaderError_eq_none {d : State} (hlen : 22 ≤ d.decLen) (hmagic : d.str.readBytes 0 4 = magic)
    (hcs : (d.str.read 13).toNat ≤ 1) (hch : d.str.read 12 = 3 ∨ d.str.read 12 = 4)
    (room : fits d.cfg.pixCap d.decParse.decBytes = true) : d.decHeaderError = none := by
  rw [State.decHeaderError, if_neg (by omega), if_neg (not_not.2 hmagic), if_neg (by omega), if_neg (by tauto),
    if_pos room]

/-- A started decode of a legal header, chunks that give the whole image and the end marker ends with the pixels of
the chunks in PIX, strict or lenient. -/
theorem runSteps_decStarted {d : State} {w h : Word} {c cs : Byte} {chunks : List Instr} (hb : d.status = .busy)
    (ho : d.op = .dec) (hp : d.phase = .start) (hch : c = 3 ∨ c = 4) (hcs : cs.toNat ≤ 1)
    (legal : ∀ i ∈ chunks, i.wellFormed = true)
    (stream : d.str.readBytes 0 d.decLen = headerBytes w h c cs ++ (chunks.flatMap encode ++ endMarker))
    (room : fits d.cfg.pixCap (w.toNat * h.toNat * c.toNat) = true)
    (whole : (playback chunks).pixels.length = w.toNat * h.toNat) :
    ∃ u, runSteps (2 + w.toNat * h.toNat) d = .next u ∧ u.status = .done ∧ u.decWidth = w ∧ u.decHeight = h
      ∧ u.decChannels = c ∧ u.decColorspace = cs ∧ u.decPixLen = w.toNat * h.toNat * c.toNat
      ∧ u.pix = d.pix.writeBytes 0 ((playback chunks).pixels.flatMap (pixelBytes c)) := by
  have hlen : d.decLen = 14 + (chunks.flatMap encode ++ endMarker).length := by
    have := congrArg List.length stream
    rwa [Memory.readBytes_length, List.length_append, headerBytes_length] at this
  rw [hlen, Memory.readBytes_add] at stream
  obtain ⟨header, body⟩ := List.append_inj stream rfl
  obtain ⟨hmagic, dims, hc, hcs'⟩ := header_fields header
  obtain ⟨hw, hh⟩ := decParse_dims dims
  have hpx : d.decParse.decPixels = w.toNat * h.toNat := by rw [State.decPixels, hw, hh]
  have hc' : d.decParse.decChannels = c := hc
  have noError : d.decHeaderError = none := by
    refine decHeaderError_eq_none ?_ hmagic (hcs' ▸ hcs) (hc ▸ hch) ?_
    · rw [hlen, List.length_append, show endMarker.length = 8 from rfl]; omega
    · rw [State.decBytes, hpx, hc']; exact room
  obtain ⟨cursor', cur', run⟩ := runSteps_atChunk (s := d.decParse) (b := .initial) (cursor := 14) (cur := d.cur)
    hb ho (hc' ▸ hch) legal hlen body (whole.trans hpx.symm)
  have steps : chunks.length + 1 + 1 ≤ 2 + w.toNat * h.toNat := by
    have : 0 + chunks.length ≤ (playback chunks).pixels.length := length_le_foldl_play chunks .initial
    omega
  have started : step d = .next (d.decParse.atChunk .initial 14 d.cur) := by
    rw [step_decStart hb ho hp, decStart_of_ok noError, decInit_eq_atChunk]; rfl
  refine ⟨_, runSteps_mono ((runSteps_of_step started _).trans run) (fun h => by cases h) steps, rfl, hw, hh, hc, hcs',
    ?_, ?_⟩
  · show (playback chunks).pixels.length * (d.str.read 12).toNat = _
    rw [whole, hc]
  · show d.pix.writeBytes 0 ((playback chunks).pixels.flatMap (pixelBytes (d.str.read 12))) = _
    rw [hc]

/-- No run of steps writes a parameter register or a capacity (R33, R35, R36). -/
theorem runSteps_sameParameters {n : Nat} {s t : State} (run : runSteps n s = .next t) : SameParameters s t := by
  induction n generalizing s with
  | zero => cases run; exact .refl _
  | succ n ih =>
    cases hs : step s with
    | next u =>
      rw [runSteps_of_step hs] at run
      exact (step_effect hs).sameParameters.trans (ih run)
    | fault f => simp [runSteps, hs] at run
    | refused r => simp [runSteps, hs] at run

/-! ### The round trip -/

/-- The stream of an image with legal arguments is its header, chunks that give its pixels back and the end marker. -/
theorem exists_chunks_refEncLoop (m : Memory) (w h : Word) {c : Byte} (cs : Byte) (hc : c = 3 ∨ c = 4) :
    ∃ chunks, (∀ i ∈ chunks, i.wellFormed = true)
      ∧ (refEncLoop (m.readBytes 0 (w.toNat * h.toNat * c.toNat)) c.toNat (w.toNat * h.toNat) 0
          (.initial w h c cs)).out = headerBytes w h c cs ++ chunks.flatMap encode
      ∧ (playback chunks).pixels = (List.range (w.toNat * h.toNat)).map fun i => loadPixel m i c := by
  obtain ⟨chunks, emitted⟩ := emitted_refEncLoop (emitted_initial w h c cs)
    (m.readBytes 0 (w.toNat * h.toNat * c.toNat)) c.toNat (w.toNat * h.toNat) 0
  refine ⟨chunks, emitted.legal, emitted.out, ?_⟩
  rw [emitted.played, List.nil_append, ← List.range_eq_range']
  refine List.map_congr_left fun i hi => listPixel_readBytes m hc ?_
  exact Nat.mul_le_mul_right _ (List.mem_range.1 hi)

/-- The whole stream of an image takes at most the room of R151. -/
theorem refEncLoop_stream_length_le (bytes : List Byte) (w h : Word) {c : Byte} (cs : Byte) (hc : c = 3 ∨ c = 4)
    (n : Nat) :
    ((refEncLoop bytes c.toNat n 0 (.initial w h c cs)).out ++ endMarker).length ≤ 22 + n * (c.toNat + 1) := by
  have body := refEncLoop_length_le bytes (hc.imp (congrArg BitVec.toNat) (congrArg BitVec.toNat)) n 0
    (v := .initial w h c cs) fun _ => (by decide : alpha initialPrev = 255)
  have header : (EncLoop.initial w h c cs).out.length = 14 := rfl
  rw [List.length_append, show endMarker.length = 8 from rfl]
  omega

/-- Settles O58: the encode ends with R148's stream, whose chunks the decode plays back. -/
theorem encodeThenDecodeIsLossless : Obligations.EncodeThenDecodeIsLossless := by
  intro s m strict hb ho hp hw hm hch hcs hlen outRoom pixRoom
  obtain ⟨t, run, ends⟩ := runSteps_encStarted hb ho hp hw ((encArgsOk_iff s).2 ⟨hch, hcs, hlen⟩)
  obtain ⟨done, outLen, str⟩ :=
    ends.stream (fits_of_le outRoom (refEncLoop_stream_length_le _ _ _ _ hch _))
  obtain ⟨chunks, legal, out, pixels⟩ := exists_chunks_refEncLoop s.pix s.encWidth s.encHeight s.encColorspace hch
  rw [hlen, out, List.append_assoc] at outLen str
  have stream : t.str.readBytes 0 t.encOutLen
      = headerBytes s.encWidth s.encHeight s.encChannels s.encColorspace ++ (chunks.flatMap encode ++ endMarker) := by
    rw [outLen, str, Memory.readBytes_writeBytes 0 _ hw]
  have room : fits t.cfg.pixCap (s.encWidth.toNat * s.encHeight.toNat * s.encChannels.toNat) = true := by
    rw [(runSteps_sameParameters run).cfg, ← hlen]; exact pixRoom
  have whole : (playback chunks).pixels.length = s.encWidth.toNat * s.encHeight.toNat := by
    rw [pixels, List.length_map, List.length_range]
  have bytes : (playback chunks).pixels.flatMap (pixelBytes s.encChannels) = s.pix.readBytes 0 s.encPixLen := by
    rw [pixels, flatMap_loadPixel _ _ hch, hlen]
  obtain ⟨u, run', udone, width, height, channels, colorspace, pixLen, pix⟩ := runSteps_decStarted
    (d := ({ t with pix := m, decLen := t.encOutLen, decStrict := strict } : State).started .dec) rfl rfl rfl hch hcs
    legal stream room whole
  refine ⟨t, u, run, done, ?_, udone, width, height, channels, colorspace, pixLen.trans hlen.symm, ?_⟩
  · rw [writeCmd_of_halted (by simp [done])]
    exact run'
  · have stored := Memory.readBytes_writeBytes 0 (s.pix.readBytes 0 s.encPixLen) hm
    rw [Memory.readBytes_length] at stored
    rw [pix, bytes]
    exact stored

end Sys2Proof.Machine

/-! SUPPORT. The decoder's chunks: each kind's outcomes with the whole effect of the one that goes through, and the
chunk that a step runs. -/

namespace Sys2Proof.Machine

/-! ### A chunk's own effect -/

/-- Settles O22. -/
theorem chunkNotDueStops : Obligations.ChunkNotDueStops := fun i _ h => exec_of_not_due i h

/-- Settles O23: the bytes at `cursor` are fetched as the chunk they encode. -/
theorem stepRunsChunkAtCursor : Obligations.StepRunsChunkAtCursor := fun _ _ legal ⟨hb, ho, hp, _⟩ within bytes =>
  step_of_bytesAtCursor legal hb ho hp within bytes

section
variable {s : State} {length : Nat}

/-- A due chunk longer than the input left raises `UnexpectedEof` (R176). -/
theorem whenFits_of_due_short (hdue : s.chunkDue) (short : s.decLen < s.cursor + length)
    (r : Host.Outcome State Fault Refusal) :
    s.whenChunkDue (s.whenFits length r) = .next (s.raiseError .unexpectedEof s.pixWr) := by
  rw [State.whenChunkDue_of_due hdue, State.whenFits_of_short short, State.chunkError]

/-- A due chunk within the input takes its course. -/
theorem whenFits_of_due_fits (hdue : s.chunkDue) (within : s.cursor + length ≤ s.decLen)
    (r : Host.Outcome State Fault Refusal) : s.whenChunkDue (s.whenFits length r) = r := by
  rw [State.whenChunkDue_of_due hdue, State.whenFits_of_fits within]

/-- The effect of a chunk of one pixel: where a chunk is due at least one is owed. -/
theorem emitChunk_effect_single (hdue : s.chunkDue) (hw : s.pix.wf = true) (p : Word) :
    ChunkEffect s (s.emitChunk length 1 p) length 1 p := by
  obtain ⟨-, -, -, owed, -⟩ := id hdue
  exact emitChunk_effect hdue hw p owed

end

/-- The components after deltas: wrapping additions, alpha kept (R180, R181). -/
theorem addDeltas_components (p : Word) (dr dg db : Int) :
    ((red (addDeltas p dr dg db)).toNat : Int) = ((red p).toNat + dr) % 256
    ∧ ((green (addDeltas p dr dg db)).toNat : Int) = ((green p).toNat + dg) % 256
    ∧ ((blue (addDeltas p dr dg db)).toNat : Int) = ((blue p).toNat + db) % 256
    ∧ alpha (addDeltas p dr dg db) = alpha p := by
  rw [red_addDeltas, green_addDeltas, blue_addDeltas]
  exact ⟨addDelta_toNat .., addDelta_toNat .., addDelta_toNat .., alpha_addDeltas ..⟩

/-- Settles O16, by the length test and the common tail. -/
theorem rgbTakesThreeComponents : Obligations.RgbTakesThreeComponents := fun _ _ _ _ hdue hw =>
  ⟨fun short => whenFits_of_due_short hdue short _,
    fun within => ⟨_, whenFits_of_due_fits hdue within _, emitChunk_effect_single hdue hw _,
      red_pack .., green_pack .., blue_pack .., alpha_pack ..⟩⟩

/-- Settles O17, by the length test and the common tail. -/
theorem rgbaTakesFourComponents : Obligations.RgbaTakesFourComponents := fun _ _ _ _ _ hdue hw =>
  ⟨fun short => whenFits_of_due_short hdue short _,
    fun within => ⟨_, whenFits_of_due_fits hdue within _, emitChunk_effect_single hdue hw _,
      red_pack .., green_pack .., blue_pack .., alpha_pack ..⟩⟩

/-- Settles O18: the pixel is the entry of the state before the update. -/
theorem indexTakesTableEntry : Obligations.IndexTakesTableEntry := fun _ _ hdue hw =>
  ⟨_, State.whenChunkDue_of_due hdue _, emitChunk_effect_single hdue hw _⟩

/-- Settles O19, from the components after deltas. -/
theorem diffAddsDeltas : Obligations.DiffAddsDeltas := fun _ _ _ s hdue hw =>
  ⟨_, State.whenChunkDue_of_due hdue _, emitChunk_effect_single hdue hw _, addDeltas_components s.prev _ _ _⟩

/-- Settles O20, by the length test and from the components after deltas. -/
theorem lumaAddsDeltas : Obligations.LumaAddsDeltas := fun _ _ _ s hdue hw =>
  ⟨fun short => whenFits_of_due_short hdue short _,
    fun within => ⟨_, whenFits_of_due_fits hdue within _, emitChunk_effect_single hdue hw _,
      addDeltas_components s.prev _ _ _⟩⟩

/-- Settles O21, by RUN's two checks in order. -/
theorem runRepeatsPrev : Obligations.RunRepeatsPrev := by
  intro fr s hdue hw
  have checks : exec (.run fr) s =
      if 62 ≤ fr.toNat then .next (s.chunkError .illegalRun)
      else if s.remaining < runCount fr then .next (s.chunkError .pixelCountMismatch)
      else .next (s.emitChunk 1 (runCount fr) s.prev) := State.whenChunkDue_of_due hdue _
  rw [checks]
  refine ⟨fun illegal => if_pos illegal, fun legal long => ?_, fun legal owed => ?_⟩
  · rw [if_neg (not_le.2 legal)]
    exact if_pos long
  · rw [if_neg (not_le.2 legal), if_neg (show ¬ s.remaining < runCount fr from not_lt.2 owed)]
    exact ⟨_, rfl, emitChunk_effect hdue hw s.prev owed⟩

/-! ### A stored table word -/

theorem chunkDue_readyForChunk (s : State) : s.readyForChunk.chunkDue := by
  unfold State.readyForChunk
  split_ifs with hdue
  · exact hdue
  · exact ⟨rfl, rfl, rfl, (by decide : 0 < 62), .inr rfl⟩

theorem readyForChunk_str (s : State) : s.readyForChunk.str = s.str := by
  unfold State.readyForChunk
  split_ifs <;> rfl

/-- The first bytes of a sequence written are read back. -/
theorem Memory.readBytes_writeBytes_append {m : Memory} (a : Nat) (bs cs : List Byte) (h : m.wf = true) :
    (m.writeBytes a (bs ++ cs)).readBytes a bs.length = bs := by
  rw [Memory.writeBytes_append, Memory.readBytes_writeBytes_outside _ _ (.inl le_rfl),
    Memory.readBytes_writeBytes a bs h]

/-- Settles O24: the table word's bytes begin with the chunk's, which then stand at `cursor` within the input. -/
theorem stepRunsFetchWord : Obligations.StepRunsFetchWord := by
  intro i s legal hw
  have due : (s.withChunk i).chunkDue := chunkDue_readyForChunk s
  have length : (encode i).length ≤ 5 := (encode_length i).2
  have within : (s.withChunk i).cursor + (encode i).length ≤ (s.withChunk i).decLen := by
    show s.readyForChunk.cursor + (encode i).length ≤ max s.readyForChunk.decLen (s.readyForChunk.cursor + 8)
    omega
  have bytes : (s.withChunk i).str.readBytes (s.withChunk i).cursor (encode i).length = encode i := by
    have str : (s.withChunk i).str = s.readyForChunk.str.writeBytes s.readyForChunk.cursor
        (encode i ++ List.replicate (maxChunkLength - (encode i).length) 0) := by
      rw [← wordBytes_wordValue (encode_length i).2]; rfl
    rw [str]
    exact Memory.readBytes_writeBytes_append _ _ _ (by rw [readyForChunk_str]; exact hw)
  exact ⟨due, stepRunsChunkAtCursor i _ legal due within bytes⟩

end Sys2Proof.Machine

/-! SUPPORT. The decoder's start and end steps, an equation per check, and what holds of every step. -/

namespace Sys2Proof.Machine

/-! ### The start step -/

/-- A failed header check raises its error with PIX untouched and no result left (R221, R222; log 4). -/
theorem decStart_fails {s : State} {k : ErrorKind} (hb : s.status = .busy) (ho : s.op = .dec) (hp : s.phase = .start)
    (h : s.decHeaderError = some k) : ∃ t, step s = .next t ∧ t.status = .error ∧ t.err = k.code
      ∧ t.decWidth = 0 ∧ t.decHeight = 0 ∧ t.decChannels = 0 ∧ t.decColorspace = 0 ∧ t.decPixLen = 0
      ∧ t.pix = s.pix ∧ t.str = s.str ∧ SameParameters s t := by
  rw [step_decStart hb ho hp, decStart_of_error h]
  exact ⟨_, rfl, rfl, rfl, if_pos ho, if_pos ho, if_pos ho, if_pos ho, if_pos ho, if_pos ho,
    (raiseError_of_dec ho k 0).1, raiseError_parameters s k 0⟩

theorem readBytes_eq_magic_iff (m : Memory) : m.readBytes 0 4 = magic ↔
    m.read 0 = 0x71 ∧ m.read 1 = 0x6F ∧ m.read 2 = 0x69 ∧ m.read 3 = 0x66 := by
  simp [Memory.readBytes, magic]

/-! The header checks, each failing where those before it pass (R171 to R175, R221). -/

section
variable {s : State}

theorem decHeaderError_of_short (short : s.decLen < 22) : s.decHeaderError = some .tooShort := if_pos short

theorem decHeaderError_of_badMagic (long : 22 ≤ s.decLen) (bad : s.str.readBytes 0 4 ≠ magic) :
    s.decHeaderError = some .badMagic := by
  rw [State.decHeaderError, if_neg (not_lt.2 long), if_pos bad]

theorem decHeaderError_of_badColorspace (long : 22 ≤ s.decLen) (good : s.str.readBytes 0 4 = magic)
    (bad : 1 < (s.str.read 13).toNat) : s.decHeaderError = some .badColorspace := by
  rw [State.decHeaderError, if_neg (not_lt.2 long), if_neg (not_not.2 good), if_pos bad]

theorem decHeaderError_of_badChannels (long : 22 ≤ s.decLen) (good : s.str.readBytes 0 4 = magic)
    (colorspace : (s.str.read 13).toNat ≤ 1) (bad : s.str.read 12 ≠ 3 ∧ s.str.read 12 ≠ 4) :
    s.decHeaderError = some .badChannels := by
  rw [State.decHeaderError, if_neg (not_lt.2 long), if_neg (not_not.2 good),
    if_neg (not_lt.2 colorspace), if_pos bad]

theorem decHeaderError_of_full (long : 22 ≤ s.decLen) (good : s.str.readBytes 0 4 = magic)
    (colorspace : (s.str.read 13).toNat ≤ 1) (channels : s.str.read 12 = 3 ∨ s.str.read 12 = 4)
    (full : fits s.cfg.pixCap s.decParse.decBytes = false) : s.decHeaderError = some .outOfCapacity := by
  rw [State.decHeaderError, if_neg (not_lt.2 long), if_neg (not_not.2 good), if_neg (not_lt.2 colorspace),
    if_neg (by tauto), if_neg (by simp [full])]

end

/-- Settles O46, check by check. -/
theorem decodeStartChecksInOrder : Obligations.DecodeStartChecksInOrder := by
  intro s hb ho hp fails goodMagic
  have magicIff : s.str.readBytes 0 4 = magic ↔ goodMagic := readBytes_eq_magic_iff s.str
  have fail {k : ErrorKind} (h : s.decHeaderError = some k) : fails k.code := decStart_fails hb ho hp h
  exact ⟨fun short => fail (decHeaderError_of_short short),
    fun long bad => fail (decHeaderError_of_badMagic long (mt magicIff.1 bad)),
    fun long good bad => fail (decHeaderError_of_badColorspace long (magicIff.2 good) bad),
    fun long good colorspace not3 not4 =>
      fail (decHeaderError_of_badChannels long (magicIff.2 good) colorspace ⟨not3, not4⟩)⟩

/-- Settles O47: the capacity is the last check, and the parsed header is the image's. -/
theorem decodeStartInitialises : Obligations.DecodeStartInitialises := by
  intro s w h hb ho hp long good colorspace channels dims
  obtain ⟨width, height⟩ := decParse_dims dims
  have pixels : s.decParse.decPixels = w.toNat * h.toNat := by rw [State.decPixels, width, height]
  have bytes : s.decParse.decBytes = w.toNat * h.toNat * (s.str.read 12).toNat := by rw [State.decBytes, pixels]; rfl
  rw [← bytes, ← pixels]
  constructor
  case left =>
    intro room
    have header : s.decHeaderError = none := decHeaderError_eq_none long good colorspace channels room
    rw [step_decStart hb ho hp, decStart_of_ok header]
    exact ⟨_, rfl, width, height, rfl, rfl, idxRead_of_cleared rfl, rfl, rfl, rfl, rfl, rfl, hb, ho, rfl, rfl, rfl,
      rfl, rfl, (StepEffect.decStarted hb ho hp header).sameParameters⟩
  case right =>
    exact fun full => decStart_fails hb ho hp (decHeaderError_of_full long good colorspace channels full)

/-! ### The end step -/

/-- A strict decode with anything but the end marker left ends in `PixelCountMismatch` (R184). -/
theorem decEnd_of_rejected {d : State} (strict : d.decStrict = true) (rejected : ¬ d.strictEndOk = true) :
    decEnd d = d.raiseError .pixelCountMismatch d.pixWr :=
  if_pos (by simp [strict, rejected])

/-- Settles O48: what a strict decoder accepts is what the statement asks for. -/
theorem decodeEndStrictOrLenient : Obligations.DecodeEndStrictOrLenient := by
  intro s hb ho hp
  have marker := strictEndOk_iff s
  rw [step_decEnd hb ho hp]
  refine ⟨fun accepted => ?_, fun strict bad => ?_⟩
  · rw [decEnd_of_accepted fun strict => marker.2 (accepted.resolve_left (by simp [strict]))]
    exact ⟨_, rfl, rfl, rfl, rfl⟩
  · rw [decEnd_of_rejected strict (mt marker.1 bad)]
    exact ⟨_, rfl, rfl, rfl, if_pos ho, if_pos ho, if_pos ho, if_pos ho, if_pos ho,
      (raiseError_of_dec ho .pixelCountMismatch s.pixWr).1, raiseError_parameters s .pixelCountMismatch s.pixWr⟩

/-! ### Every step -/

/-- Settles O49, from the two outcomes of a due chunk step. -/
theorem chunkStepMakesProgress : Obligations.ChunkStepMakesProgress := by
  intro s t hdue stepped ok
  rcases step_decBody_cases hdue with ⟨k, -, e⟩ | ⟨length, count, p, lengthPos, countPos, owed, e⟩ <;>
    rw [e] at stepped <;> cases stepped
  · exact absurd rfl ok
  · exact ⟨show s.cursor < s.cursor + length by omega, show s.remaining - count < s.remaining by omega⟩

/-- Settles O26: only a raised error writes ERR, and its code is one of those. -/
theorem stepNeverRaisesIllegalRun : Obligations.StepNeverRaisesIllegalRun := fun _ _ stepped => by
  cases step_effect stepped with
  | raised _ k raisable => exact .inr raisable
  | stay | encStarted | runExtended | runAppended | chunkAppended | encFinished | decStarted | chunkRun | decFinished =>
    exact .inl rfl

/-- An encode between its pixels meets the conditions of a pixel step (log 8). -/
theorem EncRunning.pixelDue {s : State} (h : EncRunning s) (hb : s.status = .busy) (ho : s.op = .enc)
    (hp : s.phase = .body) : s.pixelDue :=
  ⟨hb, ho, hp, h.phase.1 hp, h.channels, fun _ => (by decide : 0 < 14).trans_le h.outLenLow⟩

/-- A decode between its chunks meets the conditions of a chunk step (log 8). -/
theorem DecRunning.chunkDue {s : State} (h : DecRunning s) (hb : s.status = .busy) (ho : s.op = .dec)
    (hp : s.phase = .body) : s.chunkDue :=
  ⟨hb, ho, hp, h.phase.1 hp, h.channels⟩

/-- Settles O52: by engine and phase, the invariant making each body step due. -/
theorem stepAlwaysAnswers : Obligations.StepAlwaysAnswers := by
  intro s hI
  by_cases hb : s.status = .busy
  case neg => exact ⟨_, step_of_halted hb⟩
  cases ho : s.op <;> cases hp : s.phase
  case enc.start => exact ⟨_, step_encStart hb ho hp⟩
  case enc.body =>
    have run : EncRunning s := hI.encRunning hb ho (by simp [hp])
    exact ⟨_, step_encBody_of_due (run.pixelDue hb ho hp)⟩
  case enc.fin => exact ⟨_, step_encEnd hb ho hp⟩
  case dec.start => exact ⟨_, step_decStart hb ho hp⟩
  case dec.body =>
    have run : DecRunning s := hI.decRunning hb ho (by simp [hp])
    rcases step_decBody_cases (run.chunkDue hb ho hp) with ⟨k, -, e⟩ | ⟨length, count, p, -, -, -, e⟩
    · exact ⟨_, e⟩
    · exact ⟨_, e⟩
  case dec.fin => exact ⟨_, step_decEnd hb ho hp⟩

end Sys2Proof.Machine

/-! SUPPORT. The decode of R185 and the step machine: the chunk at `cursor` in R185's words, how a chunk step moves
R185's loop variables, and the run of a whole decode. -/

namespace Sys2Proof.Machine

/-! ### Bytes of the input -/

theorem Memory.take_readBytes (m : Memory) (a : Nat) {n k : Nat} (h : k ≤ n) :
    (m.readBytes a n).take k = m.readBytes a k := by
  rw [← Nat.add_sub_cancel' h, Memory.readBytes_add, List.take_left' (Memory.readBytes_length ..)]

theorem Memory.drop_readBytes (m : Memory) (a n k : Nat) :
    (m.readBytes a n).drop k = m.readBytes (a + k) (n - k) := by
  rcases Nat.le_total k n with h | h
  · conv_lhs => rw [← Nat.add_sub_cancel' h]
    rw [Memory.readBytes_add, List.drop_left' (Memory.readBytes_length ..)]
  · rw [Nat.sub_eq_zero_of_le h, List.drop_eq_nil_of_le ((Memory.readBytes_length ..).le.trans h)]
    rfl

/-- Byte `k` of a sequence read that is known is the byte of memory there. -/
theorem Memory.read_of_readBytes_eq {m : Memory} {a : Nat} {bs : List Byte} (h : m.readBytes a bs.length = bs)
    {k : Nat} (hk : k < bs.length) : m.read (a + k) = bs[k] := by
  have byte := Memory.readBytes_getElem? m a bs.length k hk
  rw [h, List.getElem?_eq_getElem hk] at byte
  exact (Option.some.inj byte).symm

/-! ### The chunk at the cursor, fetched and in R185's words -/

/-- A fetched chunk's bytes stand at `cursor` (R176). -/
theorem bytes_of_fetchChunk {s : State} {i : Instr} (h : s.fetchChunk = some i) :
    s.str.readBytes s.cursor (encode i).length = encode i := by
  unfold State.fetchChunk at h
  split at h
  next j rest hd =>
    cases h
    have window := encode_append_of_decode hd
    have hl := (wellFormed_and_length_of_decode hd).2
    rw [State.fetchWindow, Memory.readBytes_length] at hl
    rw [← Memory.take_readBytes _ _ hl, ← State.fetchWindow, ← window, List.take_left]
  next => cases h

/-- No chunk is fetched only where the input ends first (R176). -/
theorem short_of_fetchChunk_none {s : State} (h : s.fetchChunk = none) :
    s.decLen ≤ s.cursor ∨ s.decLen < s.cursor + chunkLength (s.str.read s.cursor) := by
  refine or_iff_not_imp_left.2 fun hc => ?_
  obtain ⟨n, hn⟩ : ∃ n, min maxChunkLength (s.decLen - s.cursor) = n + 1 :=
    Nat.exists_eq_succ_of_ne_zero (by simp only [maxChunkLength]; omega)
  have window : s.fetchWindow = s.str.read s.cursor :: s.str.readBytes (s.cursor + 1) n := by
    rw [State.fetchWindow, hn]; rfl
  have long : ¬ chunkLength (s.str.read s.cursor) ≤ n + 1 := fun hle => by
    obtain ⟨i, hi⟩ := (decode_cons_by_length _ (s.str.readBytes (s.cursor + 1) n)).1
      (by rwa [Memory.readBytes_length])
    rw [State.fetchChunk, window, hi] at h
    cases h
  have five : chunkLength (s.str.read s.cursor) ≤ maxChunkLength := by
    unfold chunkLength maxChunkLength
    split_ifs <;> omega
  omega

/-- R185 and R97 give a chunk the same length. -/
theorem refChunkAt_length (input : List Byte) (v : DecLoop) :
    (refChunkAt input v).1 = chunkLength (inputByte input v.cursor) := by
  rw [chunkLength_eq_by_range]
  simp only [refChunkAt, apply_ite Prod.fst]
  split_ifs <;> omega

/-- Additions modulo 256 in R180's words and in the machine's. -/
theorem refAdd_eq_addDeltas (p : Word) (dr dg db : Int) : refAdd p dr dg db = addDeltas p dr dg db := by
  have residue (c : Byte) (d : Int) : BitVec.ofInt 8 ((c.toNat + d) % 256) = addDelta c d :=
    BitVec.eq_of_toNat_eq (by simp [addDelta, BitVec.toNat_ofInt])
  simp only [refAdd, addDeltas, residue]

/-- A byte below both full-byte tags is neither. -/
theorem ne_fullTag_of_lt {b : Byte} (h : b.toNat < 0xFE) : b ≠ 0xFE ∧ b ≠ 0xFF := by
  constructor <;> rintro rfl <;> exact absurd h (by decide)

/-- Where the bytes of a well-formed chunk stand at `cursor`, R185 reads that chunk's length, pixel and count. -/
theorem refChunkAt_of_bytes {input : List Byte} {v : DecLoop} {i : Instr} (legal : i.wellFormed = true)
    (bytes : ∀ k (hk : k < (encode i).length), inputByte input (v.cursor + k) = (encode i)[k]) :
    refChunkAt input v = ((encode i).length, chunkPixel v.idx v.prev i, chunkCount i) := by
  have head := bytes 0 (encode_length i).1
  rw [Nat.add_zero] at head
  cases i with
  | rgb r g b =>
    simp only [refChunkAt, head, bytes 1 (by decide : 1 < 4), bytes 2 (by decide : 2 < 4), bytes 3 (by decide : 3 < 4)]
    rfl
  | rgba r g b a =>
    simp only [refChunkAt, head, bytes 1 (by decide : 1 < 5), bytes 2 (by decide : 2 < 5), bytes 3 (by decide : 3 < 5),
      bytes 4 (by decide : 4 < 5)]
    rfl
  | index idx =>
    have first : inputByte input v.cursor = tagIndex ++ idx := head
    have value : (tagIndex ++ idx).toNat = idx.toNat := (append_toNat tagIndex idx).trans (Nat.zero_add _)
    obtain ⟨hRgb, hRgba⟩ := ne_fullTag_of_lt (b := tagIndex ++ idx) (by omega)
    have entry : v.idx.getD idx.toNat 0 = v.idx[idx.toNat]'idx.isLt := by
      simp [Vector.getD, Vector.getElem?_eq_getElem idx.isLt]
    simp only [refChunkAt, first, if_neg hRgb, if_neg hRgba, value]
    rw [if_pos idx.isLt, entry]
    rfl
  | diff fr fg fb =>
    have first : inputByte input v.cursor = tagDiff ++ fr ++ fg ++ fb := head
    have value : (tagDiff ++ fr ++ fg ++ fb).toNat = 64 + fr.toNat * 16 + fg.toNat * 4 + fb.toNat := by
      simp only [append_toNat, show tagDiff.toNat = 1 from rfl]
      omega
    obtain ⟨hRgb, hRgba⟩ := ne_fullTag_of_lt (b := tagDiff ++ fr ++ fg ++ fb) (by omega)
    simp only [refChunkAt, first, if_neg hRgb, if_neg hRgba, value]
    rw [if_neg (by omega), if_pos (by omega), refAdd_eq_addDeltas, chunkPixel, diffPixel, unbias, unbias, unbias]
    congr 3 <;> omega
  | luma fg frg fbg =>
    have first : inputByte input v.cursor = tagLuma ++ fg := head
    have second : inputByte input (v.cursor + 1) = frg ++ fbg := bytes 1 (by decide : 1 < 2)
    have value : (tagLuma ++ fg).toNat = 128 + fg.toNat := append_toNat tagLuma fg
    obtain ⟨hRgb, hRgba⟩ := ne_fullTag_of_lt (b := tagLuma ++ fg) (by omega)
    simp only [refChunkAt, first, second, if_neg hRgb, if_neg hRgba, value, append_toNat frg fbg]
    rw [if_neg (by omega), if_neg (by omega), if_pos (by omega), refAdd_eq_addDeltas, chunkPixel, lumaPixel, unbias,
      unbias, unbias]
    congr 3 <;> omega
  | run fr =>
    have first : inputByte input v.cursor = tagRun ++ fr := head
    have value : (tagRun ++ fr).toNat = 192 + fr.toNat := append_toNat tagRun fr
    have below : fr.toNat < 62 := of_decide_eq_true legal
    obtain ⟨hRgb, hRgba⟩ := ne_fullTag_of_lt (b := tagRun ++ fr) (by omega)
    simp only [refChunkAt, first, if_neg hRgb, if_neg hRgba, value]
    rw [if_neg (by omega), if_neg (by omega), if_neg (by omega), chunkCount, runCount]
    congr 3; omega

/-! ### R185's loop and the machine -/

/-- A chunk played gives its count of pixels. -/
theorem Playback.length_play (b : Playback) (i : Instr) :
    (b.play i).pixels.length = b.pixels.length + chunkCount i := by
  simp [Playback.play]

/-- A due chunk that emits more pixels than are owed is a RUN and raises `PixelCountMismatch` (R182). -/
theorem exec_of_overrun {i : Instr} {d : State} (hdue : d.chunkDue) (legal : i.wellFormed = true)
    (long : d.remaining < chunkCount i) : exec i d = .next (d.chunkError .pixelCountMismatch) := by
  obtain ⟨-, -, -, owed, -⟩ := id hdue
  cases i with
  | run fr =>
    have hlegal : ¬ 62 ≤ fr.toNat := by simpa [Instr.wellFormed] using legal
    have hlong : d.remaining < runCount fr := long
    simp only [exec, execRun, State.whenChunkDue_of_due hdue, if_neg hlegal, if_pos hlong]
  | rgb | rgba | index | diff | luma => exact absurd long (Nat.not_lt.2 owed)

/-- The input of R185 for a decode in `s`: what STR holds below DEC_LEN. -/
def State.refInput (s : State) : List Byte := s.str.readBytes 0 s.decLen

@[simp] theorem refInput_length (s : State) : s.refInput.length = s.decLen := Memory.readBytes_length ..

/-- R185's input byte `k` is the byte of STR there. -/
theorem inputByte_refInput {s : State} {k : Nat} (hk : k < s.decLen) : inputByte s.refInput k = s.str.read k := by
  rw [inputByte, State.refInput, Memory.readBytes_getD s.str 0 hk, Nat.zero_add]

/-- R185's loop variables for the decode whose header is parsed in `s`, standing at `cursor` with `b` rebuilt. -/
def State.refLoop (s : State) (b : Playback) (cursor : Nat) : DecLoop :=
  ⟨b.pixels.flatMap (pixelBytes s.decChannels), b.idx, b.prev, cursor, s.decPixels - b.pixels.length⟩

/-- What R185 answers once its loop is over. -/
def State.refEnd (s : State) (v : DecLoop) : Except ErrorKind Decoded :=
  if s.decStrict = true ∧ s.refInput.drop v.cursor ≠ endMarker then .error .pixelCountMismatch
  else .ok ⟨v.out, s.decWidth, s.decHeight, s.decChannels, s.decColorspace⟩

section
variable {s : State} {b : Playback} {cursor : Nat} {cur : Word}

/-- R185's iteration where no chunk can be read. -/
theorem refDecChunk_of_short (short : (s.atChunk b cursor cur).fetchChunk = none) :
    refDecChunk s.refInput s.decChannels (s.refLoop b cursor) = .error .unexpectedEof := by
  have ending : s.decLen ≤ cursor ∨ s.decLen < cursor + chunkLength (s.str.read cursor) :=
    short_of_fetchChunk_none short
  by_cases empty : s.decLen ≤ cursor
  · exact if_pos ((refInput_length s).le.trans empty)
  · have cut : s.refInput.length < cursor + (refChunkAt s.refInput (s.refLoop b cursor)).1 := by
      rw [refChunkAt_length, refInput_length, State.refLoop, inputByte_refInput (not_le.1 empty)]
      exact ending.resolve_left empty
    exact (if_neg (by rwa [refInput_length])).trans (if_pos cut)

/-- R185's iteration for a chunk in the input: the machine's check of the count, and its effect. -/
theorem refDecChunk_of_fetched {i : Instr} (fetched : (s.atChunk b cursor cur).fetchChunk = some i) :
    refDecChunk s.refInput s.decChannels (s.refLoop b cursor) =
      if s.decPixels - b.pixels.length < chunkCount i then .error .pixelCountMismatch
      else .ok (s.refLoop (b.play i) (cursor + (encode i).length)) := by
  obtain ⟨legal, within⟩ : i.wellFormed = true ∧ cursor + (encode i).length ≤ s.decLen :=
    wellFormed_and_fits_of_fetchChunk fetched
  have pos := (encode_length i).1
  have chunk : refChunkAt s.refInput (s.refLoop b cursor)
      = ((encode i).length, chunkPixel b.idx b.prev i, chunkCount i) :=
    refChunkAt_of_bytes legal fun k hk => (inputByte_refInput (by show cursor + k < s.decLen; omega)).trans
      (Memory.read_of_readBytes_eq (bytes_of_fetchChunk fetched) hk)
  have out : b.pixels.flatMap (pixelBytes s.decChannels)
      ++ (List.replicate (chunkCount i) (pixelBytes s.decChannels (chunkPixel b.idx b.prev i))).flatten
      = (b.play i).pixels.flatMap (pixelBytes s.decChannels) := by
    simp [Playback.play, List.flatMap]
  have here : ¬ s.refInput.length ≤ (s.refLoop b cursor).cursor := by
    rw [refInput_length]; exact Nat.not_le.2 (show cursor < s.decLen by omega)
  have inside : ¬ s.refInput.length < (s.refLoop b cursor).cursor + (encode i).length := by
    rw [refInput_length]; exact Nat.not_lt.2 within
  have left : s.decPixels - b.pixels.length - chunkCount i = s.decPixels - (b.play i).pixels.length := by
    rw [Playback.length_play, Nat.sub_sub]
  simp only [refDecChunk, chunk, if_neg here, if_neg inside]
  simp only [State.refLoop, out, left]
  rfl

/-- The commuting square of a chunk step: R185's iteration and the machine raise the same error, or play the same
chunk. -/
theorem step_atChunk_refDecChunk (hb : s.status = .busy) (ho : s.op = .dec)
    (hch : s.decChannels = 3 ∨ s.decChannels = 4) (owed : b.pixels.length < s.decPixels) :
    (∃ k, refDecChunk s.refInput s.decChannels (s.refLoop b cursor) = .error k
      ∧ step (s.atChunk b cursor cur) = .next ((s.atChunk b cursor cur).chunkError k))
    ∨ ∃ i cur', cursor + (encode i).length ≤ s.decLen
      ∧ refDecChunk s.refInput s.decChannels (s.refLoop b cursor)
        = .ok (s.refLoop (b.play i) (cursor + (encode i).length))
      ∧ step (s.atChunk b cursor cur) = .next (s.atChunk (b.play i) (cursor + (encode i).length) cur') := by
  have left : 0 < (s.atChunk b cursor cur).remaining := Nat.sub_pos_of_lt owed
  have body : (s.atChunk b cursor cur).phase = .body := if_pos left
  have due : (s.atChunk b cursor cur).chunkDue := ⟨hb, ho, body, left, hch⟩
  cases fetched : (s.atChunk b cursor cur).fetchChunk with
  | none =>
    refine .inl ⟨_, refDecChunk_of_short fetched, ?_⟩
    rw [step_decBody (s := s.atChunk b cursor cur) hb ho body, decBody, fetched]
  | some i =>
    obtain ⟨legal, within⟩ := wellFormed_and_fits_of_fetchChunk fetched
    have bytes := bytes_of_fetchChunk fetched
    rw [refDecChunk_of_fetched fetched]
    by_cases long : s.decPixels - b.pixels.length < chunkCount i
    · rw [if_pos long, step_of_bytesAtCursor (d := s.atChunk b cursor cur) legal hb ho body within bytes]
      exact .inl ⟨_, rfl, exec_of_overrun due legal long⟩
    · rw [if_neg long]
      refine .inr ⟨i, _, within, rfl, step_atChunk hb ho hch legal within bytes ?_⟩
      rw [Playback.length_play]
      omega

/-! ### The run of a decode -/

/-- How a decode started in `s` ends in `t` where R185 answers `r`. -/
structure DecodeEnds (s t : State) (r : Except ErrorKind Decoded) : Prop where
  image : ∀ d, r = .ok d → t.status = .done ∧ t.decWidth = d.width ∧ t.decHeight = d.height
    ∧ t.decChannels = d.channels ∧ t.decColorspace = d.colorspace ∧ t.decPixLen = d.pixels.length
    ∧ t.pix = s.pix.writeBytes 0 d.pixels
  error : ∀ k, r = .error k → t.status = .error ∧ t.err = k.code ∧ t.decPixLen = 0 ∧ t.decWidth = 0
    ∧ t.decHeight = 0 ∧ t.decChannels = 0 ∧ t.decColorspace = 0

theorem DecodeEnds.halted {t : State} {r : Except ErrorKind Decoded} (h : DecodeEnds s t r) : t.halted := by
  cases r with
  | ok d => obtain ⟨hs, -⟩ := h.image d rfl; simp [State.halted, hs]
  | error k => obtain ⟨hs, -⟩ := h.error k rfl; simp [State.halted, hs]

/-- An error of a decode ends it with the result registers 0 (R222). -/
theorem decodeEnds_raiseError {t : State} (ho : t.op = .dec) (k : ErrorKind) (n : Nat) :
    DecodeEnds s (t.raiseError k n) (.error k) where
  image d h := by cases h
  error j h := by
    cases h
    exact ⟨rfl, rfl, if_pos ho, if_pos ho, if_pos ho, if_pos ho, if_pos ho⟩

/-- The end step accepts what R185 accepts (R184). -/
theorem strictEndOk_atChunk_iff :
    (s.atChunk b cursor cur).strictEndOk = true ↔ s.refInput.drop cursor = endMarker := by
  rw [strictEndOk_iff, State.refInput, Memory.drop_readBytes, Nat.zero_add]
  constructor
  · rintro ⟨hlen, marker⟩
    rw [show s.decLen - cursor = 8 from (congrArg (· - cursor) hlen).trans (Nat.add_sub_cancel_left ..)]
    exact marker
  · intro marker
    have hlen : s.decLen - cursor = 8 := by
      have := congrArg List.length marker
      rwa [Memory.readBytes_length] at this
    exact ⟨show s.decLen = cursor + 8 by omega, hlen ▸ marker⟩

/-- The end step with no pixel owed (R184, R185). -/
theorem decodeEnds_decEnd (ho : s.op = .dec) (hch : s.decChannels = 3 ∨ s.decChannels = 4) :
    DecodeEnds s (decEnd (s.atChunk b cursor cur)) (s.refEnd (s.refLoop b cursor)) := by
  have marker := strictEndOk_atChunk_iff (s := s) (b := b) (cursor := cursor) (cur := cur)
  by_cases rejected : s.decStrict = true ∧ s.refInput.drop cursor ≠ endMarker
  · rw [State.refEnd, State.refLoop, if_pos rejected,
      decEnd_of_rejected (d := s.atChunk b cursor cur) rejected.1 (mt marker.1 rejected.2)]
    exact decodeEnds_raiseError (t := s.atChunk b cursor cur) ho _ _
  · rw [State.refEnd, State.refLoop, if_neg rejected,
      decEnd_of_accepted fun strict => marker.2 (not_not.1 fun left => rejected ⟨strict, left⟩)]
    refine ⟨fun d h => ?_, fun k h => by cases h⟩
    cases h
    exact ⟨rfl, rfl, rfl, rfl, rfl, (flatMap_pixelBytes_length hch _).symm, rfl⟩

/-! R185's loop, an equation per case. -/

/-- With no pixel owed the loop is over, whatever its fuel. -/
theorem refDecLoop_of_done {input : List Byte} {c : Byte} {v : DecLoop} (done : v.remaining = 0) (fuel : Nat) :
    refDecLoop input c fuel v = .ok v := by
  cases fuel with
  | zero => rfl
  | succ fuel => exact if_pos done

theorem refDecLoop_of_error {input : List Byte} {c : Byte} {v : DecLoop} {k : ErrorKind} (left : v.remaining ≠ 0)
    (h : refDecChunk input c v = .error k) (fuel : Nat) : refDecLoop input c (fuel + 1) v = .error k := by
  rw [refDecLoop, if_neg left, h]

theorem refDecLoop_of_ok {input : List Byte} {c : Byte} {v v' : DecLoop} (left : v.remaining ≠ 0)
    (h : refDecChunk input c v = .ok v') (fuel : Nat) :
    refDecLoop input c (fuel + 1) v = refDecLoop input c fuel v' := by
  rw [refDecLoop, if_neg left, h]

/-- With no pixel owed the machine and R185 take the end step. -/
theorem runSteps_atChunk_done (hb : s.status = .busy) (ho : s.op = .dec) (hch : s.decChannels = 3 ∨ s.decChannels = 4)
    (done : s.decPixels - b.pixels.length = 0) (n fuel : Nat) :
    ∃ t, runSteps (n + 1) (s.atChunk b cursor cur) = .next t
      ∧ DecodeEnds s t ((refDecLoop s.refInput s.decChannels fuel (s.refLoop b cursor)).bind s.refEnd) := by
  have fin : (s.atChunk b cursor cur).phase = .fin := if_neg (by omega)
  have ends := decodeEnds_decEnd (b := b) (cursor := cursor) (cur := cur) ho hch
  rw [refDecLoop_of_done done, runSteps_of_step (step_decEnd (s := s.atChunk b cursor cur) hb ho fin),
    runSteps_of_halted ends.halted]
  exact ⟨_, rfl, ends⟩

/-- From a chunk on the machine runs R185's loop and the end step, in as many steps as there are bytes left or pixels
owed, and one more (R187 (3), R256). -/
theorem runSteps_atChunk_ends (hb : s.status = .busy) (ho : s.op = .dec) (hch : s.decChannels = 3 ∨ s.decChannels = 4)
    {n fuel : Nat} (hn : min (s.decLen - cursor) (s.decPixels - b.pixels.length) ≤ n)
    (hfuel : s.decPixels - b.pixels.length ≤ fuel) :
    ∃ t, runSteps (n + 1) (s.atChunk b cursor cur) = .next t
      ∧ DecodeEnds s t ((refDecLoop s.refInput s.decChannels fuel (s.refLoop b cursor)).bind s.refEnd) := by
  induction fuel generalizing b cursor cur n with
  | zero => exact runSteps_atChunk_done hb ho hch (by omega) n 0
  | succ fuel ih =>
    by_cases done : s.decPixels - b.pixels.length = 0
    · exact runSteps_atChunk_done hb ho hch done n (fuel + 1)
    have owed : b.pixels.length < s.decPixels := by omega
    rcases step_atChunk_refDecChunk (cursor := cursor) (cur := cur) hb ho hch owed
      with ⟨k, e, stepped⟩ | ⟨i, cur', within, e, stepped⟩
    · rw [refDecLoop_of_error done e, runSteps_of_step stepped, State.chunkError,
        runSteps_of_halted (raiseError_halted _ _ _)]
      exact ⟨_, rfl, decodeEnds_raiseError (t := s.atChunk b cursor cur) ho k _⟩
    · have length := (encode_length i).1
      have count := chunkCount_pos i
      have played := Playback.length_play b i
      obtain ⟨n, rfl⟩ : ∃ m, n = m + 1 := Nat.exists_eq_succ_of_ne_zero (by omega)
      rw [refDecLoop_of_ok done e, runSteps_of_step stepped]
      exact ih (by omega) (by omega)

end

/-! ### The header -/

/-- The checks of the start step are R185's, in the same order, and then R185 runs its loop (R221). -/
theorem refDecode_refInput (s : State) : refDecode s.cfg.pixCap s.refInput s.decStrict =
    s.decHeaderError.elim
      ((refDecLoop s.refInput s.decParse.decChannels s.decParse.decPixels (s.decParse.refLoop .initial 14)).bind
        s.decParse.refEnd) .error := by
  by_cases short : s.decLen < 22
  · rw [refDecode, State.decHeaderError, if_pos short, if_pos (by rwa [refInput_length])]; rfl
  have byte {k : Nat} (hk : k < 22) : inputByte s.refInput k = s.str.read k := inputByte_refInput (by omega)
  have first : s.refInput.take 4 = s.str.readBytes 0 4 := Memory.take_readBytes _ _ (by omega)
  have magicBytes : ([0x71, 0x6F, 0x69, 0x66] : List Byte) = magic := rfl
  have dims : s.decParse.decBytes = (be32Value (s.str.read 4) (s.str.read 5) (s.str.read 6) (s.str.read 7)).toNat
      * (be32Value (s.str.read 8) (s.str.read 9) (s.str.read 10) (s.str.read 11)).toNat * (s.str.read 12).toNat := rfl
  simp (disch := omega) only [refDecode, State.decHeaderError, refInput_length, if_neg short, first, byte,
    magicBytes, dims]
  split_ifs with badMagic badColorspace badChannels room
  · rfl
  · rfl
  · rfl
  · split
    next k answer => exact (congrArg (·.bind s.decParse.refEnd) answer).symm
    next v answer => exact (congrArg (·.bind s.decParse.refEnd) answer).symm
  · rfl

/-- A started decode ends as R185 says, within the bound of R256. -/
theorem runSteps_decStarted_ends {s : State} (hb : s.status = .busy) (ho : s.op = .dec) (hp : s.phase = .start)
    {n : Nat} (hn : min (s.decLen - 14) s.decParse.decPixels ≤ n) :
    ∃ t, runSteps (n + 2) s = .next t ∧ DecodeEnds s t (refDecode s.cfg.pixCap s.refInput s.decStrict) := by
  rw [runSteps_of_step (step_decStart hb ho hp)]
  cases header : s.decHeaderError with
  | some k =>
    rw [decStart_of_error header, refDecode_refInput, header, runSteps_of_halted (raiseError_halted _ _ _)]
    exact ⟨_, rfl, decodeEnds_raiseError ho _ _⟩
  | none =>
    obtain ⟨-, -, -, hch, -⟩ := of_decHeaderError_none header
    rw [decStart_of_ok header, refDecode_refInput, header, decInit_eq_atChunk]
    obtain ⟨t, run, ends⟩ :=
      runSteps_atChunk_ends (s := s.decParse) (b := .initial) (cur := s.cur) hb ho hch hn le_rfl
    exact ⟨t, run, ends.image, ends.error⟩

/-- Settles O54, by the bound of the run. -/
theorem decodeTerminates : Obligations.DecodeTerminates := by
  intro s w h hb ho hp dims
  obtain ⟨width, height⟩ := decParse_dims dims
  have pixels : s.decParse.decPixels = w.toNat * h.toNat := by rw [State.decPixels, width, height]
  obtain ⟨t, run, ends⟩ := runSteps_decStarted_ends hb ho hp (n := min (s.decLen - 14) (w.toNat * h.toNat))
    (by rw [pixels])
  exact ⟨t, by rwa [Nat.add_comm], ends.halted⟩

/-- Settles O57: the run within DEC_LEN chunk steps, its end read off PIX and the result registers. -/
theorem decodeMatchesReference : Obligations.DecodeMatchesReference := by
  intro s hb ho hp hw
  obtain ⟨t, run, ends⟩ := runSteps_decStarted_ends hb ho hp (n := s.decLen) (by omega)
  refine ⟨t, by rwa [Nat.add_comm], ?_⟩
  rw [← State.refInput]
  cases answer : refDecode s.cfg.pixCap s.refInput s.decStrict with
  | ok d =>
    obtain ⟨done, width, height, channels, colorspace, pixLen, pix⟩ := ends.image d answer
    refine ⟨done, width, height, channels, colorspace, pixLen, pix ▸ Memory.readBytes_writeBytes 0 _ hw,
      fun a ha => ?_⟩
    rw [pix, Memory.read_writeBytes_outside _ _ (.inr (by rwa [Nat.zero_add]))]
  | error k => exact ends.error k answer

end Sys2Proof.Machine

/-! SUPPORT. Errors: what raising one leaves behind, the errors of each step, and the input that ends too early. -/

namespace Sys2Proof.Machine

/-! ### The state an error leaves -/

/-- A decode's error clears the decoder's result registers and keeps the bytes of PIX that the operation had not
written (R222; log 4). -/
theorem raiseError_pix_of_dec {s : State} (ho : s.op = .dec) (k : ErrorKind) (n : Nat) :
    ((s.raiseError k n).decPixLen = 0 ∧ (s.raiseError k n).decWidth = 0 ∧ (s.raiseError k n).decHeight = 0
      ∧ (s.raiseError k n).decChannels = 0 ∧ (s.raiseError k n).decColorspace = 0)
    ∧ ∀ a, n ≤ a → (s.raiseError k n).pix.read a = s.pix.read a := by
  refine ⟨⟨if_pos ho, if_pos ho, if_pos ho, if_pos ho, if_pos ho⟩, fun a ha => ?_⟩
  rw [State.raiseError_pix, if_pos ho, Memory.read_scrub_above _ ha]

/-- Settles O27, from the effect of an error on each engine's registers and buffers. -/
theorem raiseErrorEffect : Obligations.RaiseErrorEffect := by
  refine fun s k n => ⟨rfl, rfl, raiseError_parameters s k n, fun ho => ?enc, fun ho => ?dec⟩
  case enc =>
    obtain ⟨pix, results⟩ := raiseError_of_enc ho k n
    obtain ⟨outLen, unwritten⟩ := raiseError_str_of_enc ho k n
    exact ⟨outLen, results, pix, unwritten⟩
  case dec =>
    obtain ⟨str, outLen⟩ := raiseError_of_dec ho k n
    obtain ⟨⟨pixLen, width, height, channels, colorspace⟩, unwritten⟩ := raiseError_pix_of_dec ho k n
    exact ⟨pixLen, width, height, channels, colorspace, outLen, str, unwritten⟩

/-- A step that raises no error leaves STATUS as it was, or DONE. -/
theorem StepEffect.raised_or_status {s t : State} (h : StepEffect s t) :
    (∃ k, t = s.raiseError k s.writtenBytes) ∨ t.status = s.status ∨ t.status = .done := by
  cases h with
  | raised _ k _ => exact .inl ⟨k, rfl⟩
  | encFinished | decFinished => exact .inr (.inr rfl)
  | stay | encStarted | runExtended | runAppended | chunkAppended | decStarted | chunkRun => exact .inr (.inl rfl)

/-- Settles O60: from BUSY, only a raised error leads to ERROR. -/
theorem errorLeavesPreviousState : Obligations.ErrorLeavesPreviousState := by
  intro s t busy stepped error
  rcases (step_effect stepped).raised_or_status with raised | kept | done
  · exact raised
  · rw [kept, busy] at error; cases error
  · rw [done] at error; cases error

/-! ### The errors of each step but the chunk step -/

/-- The encoder's start step raises `BadArguments` or `OutOfCapacity` (R131, R132). -/
theorem encStart_err (s : State) : (encStart s).err = s.err ∨ (encStart s).err ∈ ([8, 10] : List (BitVec 4)) := by
  cases args : s.encArgsOk with
  | false => rw [encStart_of_bad args]; exact .inr (by simp [ErrorKind.code])
  | true =>
    rcases encStart_of_ok args with ⟨-, e⟩ | ⟨-, e⟩ <;> rw [e]
    · exact .inl rfl
    · exact .inr (by simp [ErrorKind.code])

/-- A pixel step raises `OutOfCapacity` (R133). -/
theorem encPixel_err (s : State) : (encPixel s).err = s.err ∨ (encPixel s).err ∈ ([10] : List (BitVec 4)) := by
  rcases encPixel_cases s with e | ⟨-, -, -, e⟩ | ⟨bs, b, -, e, -⟩ <;> rw [e]
  · exact .inr (by simp [ErrorKind.code])
  · exact .inl rfl
  · exact .inl rfl

/-- The encoder's end step raises `OutOfCapacity` (R147). -/
theorem encEnd_err (s : State) : (encEnd s).err = s.err ∨ (encEnd s).err ∈ ([10] : List (BitVec 4)) := by
  rcases encEnd_cases s with ⟨-, e⟩ | ⟨-, e⟩ <;> rw [e]
  · exact .inl rfl
  · exact .inr (by simp [ErrorKind.code])

/-- The decoder's start step raises the errors of the header checks (R171 to R175). -/
theorem decStart_err (s : State) :
    (decStart s).err = s.err ∨ (decStart s).err ∈ ([1, 2, 3, 9, 10] : List (BitVec 4)) := by
  cases header : s.decHeaderError with
  | none => rw [decStart_of_ok header]; exact .inl rfl
  | some k =>
    rw [decStart_of_error header, State.raiseError_err]
    unfold State.decHeaderError at header
    split_ifs at header <;> cases header <;> exact .inr (by simp [ErrorKind.code])

/-- The decoder's end step raises `PixelCountMismatch` (R184). -/
theorem decEnd_err (s : State) : (decEnd s).err = s.err ∨ (decEnd s).err ∈ ([6] : List (BitVec 4)) := by
  unfold decEnd
  split_ifs
  · exact .inr (by simp [ErrorKind.code])
  · exact .inl rfl

/-- Only a chunk step puts the code of `UnexpectedEof` into ERR (R214). -/
theorem decodeBody_of_unexpectedEof {s t : State} (stepped : step s = .next t) (code : t.err = 4) (fresh : s.err ≠ 4) :
    s.op = .dec ∧ s.phase = .body := by
  by_contra elsewhere
  have other {codes : List (BitVec 4)} (h : t.err = s.err ∨ t.err ∈ codes) (absent : 4 ∉ codes) : False :=
    h.elim (fun kept => absurd (kept.symm.trans code) fresh) fun raised => absurd (code ▸ raised) absent
  by_cases hb : s.status = .busy
  case neg => rw [step_of_halted hb] at stepped; cases stepped; exact absurd code fresh
  cases ho : s.op <;> cases hp : s.phase
  case enc.start =>
    rw [step_encStart hb ho hp] at stepped; cases stepped
    exact other (encStart_err s) (by decide)
  case enc.body =>
    rw [step_encBody hb ho hp, encBody] at stepped
    split_ifs at stepped
    cases stepped
    exact other (encPixel_err s) (by decide)
  case enc.fin =>
    rw [step_encEnd hb ho hp] at stepped; cases stepped
    exact other (encEnd_err s) (by decide)
  case dec.start =>
    rw [step_decStart hb ho hp] at stepped; cases stepped
    exact other (decStart_err s) (by decide)
  case dec.body => exact elsewhere ⟨ho, hp⟩
  case dec.fin =>
    rw [step_decEnd hb ho hp] at stepped; cases stepped
    exact other (decEnd_err s) (by decide)

/-! ### The chunk step on short input -/

/-- Where the input ends first, no chunk is fetched: the converse of `short_of_fetchChunk_none` (R176). -/
theorem fetchChunk_none_of_short {s : State}
    (short : s.decLen ≤ s.cursor ∨ s.decLen < s.cursor + chunkLength (s.str.read s.cursor)) : s.fetchChunk = none := by
  cases hn : min maxChunkLength (s.decLen - s.cursor) with
  | zero => rw [State.fetchChunk, State.fetchWindow, hn]; rfl
  | succ n =>
    have window : s.fetchWindow = s.str.read s.cursor :: s.str.readBytes (s.cursor + 1) n := by
      rw [State.fetchWindow, hn]; rfl
    have refused := (decode_cons_by_length (s.str.read s.cursor) (s.str.readBytes (s.cursor + 1) n)).2
      (by rw [Memory.readBytes_length]; omega)
    rw [State.fetchChunk, window, refused]

/-- A due chunk that was fetched raises no error but `PixelCountMismatch` (R177 to R182). -/
theorem step_of_fetchChunk_some {s : State} {i : Instr} (hdue : s.chunkDue) (fetched : s.fetchChunk = some i) :
    step s = .next (s.chunkError .pixelCountMismatch)
    ∨ ∃ length count p, step s = .next (s.emitChunk length count p) := by
  obtain ⟨hb, ho, hp, -⟩ := id hdue
  obtain ⟨legal, within⟩ := wellFormed_and_fits_of_fetchChunk fetched
  have run : step s = exec i s := by rw [step_decBody hb ho hp, decBody, fetched]
  rw [run]
  exact (exec_of_fits hdue legal within).imp_right fun ⟨count, p, _, _, e⟩ => ⟨_, count, p, e⟩

/-- Settles O25: the input is short exactly where no chunk is fetched, and no other step has this error. -/
theorem unexpectedEofExactlyOnShortInput : Obligations.UnexpectedEofExactlyOnShortInput := by
  refine ⟨fun s hdue => ?_, fun _ _ => decodeBody_of_unexpectedEof⟩
  obtain ⟨hb, ho, hp, -⟩ := id hdue
  cases fetched : s.fetchChunk with
  | none =>
    have raised : step s = .next (s.chunkError .unexpectedEof) := by rw [step_decBody hb ho hp, decBody, fetched]
    exact iff_of_true ⟨_, raised, rfl, rfl⟩ (short_of_fetchChunk_none fetched)
  | some i =>
    refine iff_of_false ?_ fun short => by simp [fetchChunk_none_of_short short] at fetched
    rintro ⟨t, stepped, error, code⟩
    rcases step_of_fetchChunk_some hdue fetched with e | ⟨length, count, p, e⟩ <;> rw [e] at stepped <;> cases stepped
    · exact absurd code (by decide : (6 : BitVec 4) ≠ 4)
    · exact absurd (hb.symm.trans error) (by decide)

end Sys2Proof.Machine

/-! SUPPORT. What hardware reset leaves, and the end of every encode: each pixel step ends the operation or leaves one
pixel less. -/

namespace Sys2Proof.Machine

/-! ### Hardware reset -/

/-- Power-on is the reset of a block with unbounded capacities (R240; log 3, log 13). -/
theorem hardwareReset_reset : State.reset.hardwareReset = State.reset := rfl

/-- The registers R240 names, after a reset from any state (R241). -/
theorem hardwareReset_values (s : State) :
    s.hardwareReset.status = .idle ∧ s.hardwareReset.err = 0 ∧ s.hardwareReset.encOutLen = 0
    ∧ s.hardwareReset.decWidth = 0 ∧ s.hardwareReset.decHeight = 0 ∧ s.hardwareReset.decChannels = 0
    ∧ s.hardwareReset.decColorspace = 0 ∧ s.hardwareReset.decPixLen = 0 :=
  ⟨rfl, rfl, rfl, rfl, rfl, rfl, rfl, rfl⟩

/-- Settles O32: power-on is a hardware reset too. -/
theorem resetValues : Obligations.ResetValues := by
  rintro s t (rfl | moved)
  · exact hardwareReset_reset ▸ hardwareReset_values State.reset
  · cases moved; exact hardwareReset_values s

/-- Settles O33, by the invariant of every hardware reset. -/
theorem resetMeetsInv : Obligations.ResetMeetsInv := by
  rw [Obligations.ResetMeetsInv, ← hardwareReset_reset]
  exact inv_hardwareReset State.reset

/-! ### The pixels left of an encode -/

/-- An encode past its start step with `n` pixels left. Unlike `EncRunning` it says nothing of the bytes of STR, so that
it holds of a started encode whatever the buffers are. -/
structure EncPixelsLeft (s : State) (n : Nat) : Prop where
  busy : s.status = .busy
  enc : s.op = .enc
  channels : s.encChannels = 3 ∨ s.encChannels = 4
  count : s.pxPos + n = s.encPixels
  phase : s.phase = s.encPhase s.pxPos
  outLen : 0 < s.outLen

section
variable {s : State} {n : Nat}

/-- While a pixel is left, a pixel step is due (R130). -/
theorem EncPixelsLeft.pixelDue (h : EncPixelsLeft s (n + 1)) : s.pixelDue := by
  have left : s.pxPos < s.encPixels := by have := h.count; omega
  exact ⟨h.busy, h.enc, h.phase.trans (if_pos left), left, h.channels, fun _ => h.outLen⟩

/-- With no pixel left, the end step is next (R130). -/
theorem EncPixelsLeft.phase_fin (h : EncPixelsLeft s 0) : s.phase = .fin :=
  h.phase.trans (if_neg (by have := h.count; omega))

/-- The end of a pixel step consumes a pixel (R135). -/
theorem EncPixelsLeft.finishPixel (h : EncPixelsLeft s (n + 1)) : EncPixelsLeft s.finishPixel n :=
  ⟨h.busy, h.enc, h.channels, (Nat.succ_add_eq_add_succ s.pxPos n).trans h.count, rfl, h.outLen⟩

theorem EncPixelsLeft.raiseTail (h : EncPixelsLeft s n) : EncPixelsLeft s.fetchPixel.raiseTail n :=
  ⟨h.busy, h.enc, h.channels, h.count, h.phase, h.outLen⟩

theorem EncPixelsLeft.appended (h : EncPixelsLeft s n) (b : Bool) (bs : List Byte) :
    EncPixelsLeft ((s.fetchPixel.setRunOpen b).appended bs) n :=
  ⟨h.busy, h.enc, h.channels, h.count, h.phase, Nat.lt_add_right _ h.outLen⟩

/-- A pixel step raises an error or leaves one pixel less. -/
theorem EncPixelsLeft.encPixel (h : EncPixelsLeft s (n + 1)) :
    (encPixel s).halted ∨ EncPixelsLeft (encPixel s) n := by
  rcases encPixel_cases s with e | ⟨-, -, -, e⟩ | ⟨bs, b, -, e, -⟩ <;> rw [e]
  · exact .inl (raiseError_halted _ _ _)
  · exact .inr h.raiseTail.finishPixel
  · exact .inr (h.appended b bs).finishPixel

/-- The end step leaves BUSY, for DONE or for ERROR (R147). -/
theorem encEnd_halted (s : State) : (encEnd s).halted := by
  rcases encEnd_cases s with ⟨-, e⟩ | ⟨-, e⟩ <;> rw [e]
  · exact fun busy : Status.done = .busy => by cases busy
  · exact raiseError_halted _ _ _

/-- The start step raises an error or leaves every pixel of the image (R131, R132). -/
theorem encStart_halted_or_pixelsLeft (hb : s.status = .busy) (ho : s.op = .enc) :
    (encStart s).halted ∨ EncPixelsLeft (encStart s) s.encPixels := by
  cases args : s.encArgsOk with
  | false => rw [encStart_of_bad args]; exact .inl (raiseError_halted _ _ _)
  | true =>
    obtain ⟨channels, -⟩ := (encArgsOk_iff s).1 args
    rcases encStart_of_ok args with ⟨-, e⟩ | ⟨-, e⟩ <;> rw [e]
    · exact .inr ⟨hb, ho, channels, Nat.zero_add _, rfl, (by decide : 0 < 14)⟩
    · exact .inl (raiseError_halted _ _ _)

/-- With `n` pixels left, `n` pixel steps and the end step end the encode. -/
theorem EncPixelsLeft.runSteps_halted (h : EncPixelsLeft s n) : ∃ t, runSteps (n + 1) s = .next t ∧ t.halted := by
  induction n generalizing s with
  | zero =>
    rw [runSteps_of_step (step_encEnd h.busy h.enc h.phase_fin)]
    exact ⟨_, rfl, encEnd_halted s⟩
  | succ n ih =>
    rw [runSteps_of_step (step_encBody_of_due h.pixelDue)]
    rcases h.encPixel with halted | left
    · exact ⟨_, runSteps_of_halted halted _, halted⟩
    · exact ih left

end

/-- Settles O53: the start step, then one step a pixel and the end step. -/
theorem encodeTerminates : Obligations.EncodeTerminates := by
  intro s hb ho hp
  rw [show 2 + s.encWidth.toNat * s.encHeight.toNat = s.encPixels + 1 + 1 from Nat.add_comm _ _,
    runSteps_of_step (step_encStart hb ho hp)]
  rcases encStart_halted_or_pixelsLeft hb ho with halted | left
  · exact ⟨_, runSteps_of_halted halted _, halted⟩
  · exact left.runSteps_halted

end Sys2Proof.Machine
